-- ==== Sys2Proof/Word.lean ====
section
/-! DEFINITION. The widths the spec fixes: bytes, 32-bit words, the 64-bit BitReader accumulator. -/

namespace Sys2Proof

/-- One byte of a stream, of the window or of the output (10_state.md R20, R28, R29). -/
abbrev Byte := BitVec 8

/-- A 32-bit accumulator, trailer word or host register (10_state.md R30 to R32, R42). -/
abbrev Word := BitVec 32

/-- The BitReader accumulator, P_BRWIDTH = 64 bits (00_scope.md R7, 10_state.md R23). -/
abbrev Acc := BitVec 64

end Sys2Proof
end

