-- ==== Sys2Proof/Config.lean ====
section
/-! DEFINITION. The implementation parameters of the block (00_scope.md R7). They are fixed for the machine and are
no state (10_state.md R43). -/

namespace Sys2Proof.Config

/-- P_WINDOW: the largest back-reference distance. -/
def pWindow : Nat := 32768

/-- P_MAXBITS: the longest literal/length or distance code. -/
def pMaxBits : Nat := 15

/-- P_CLMAXBITS: the longest code-length code (a 3-bit field). -/
def pClMaxBits : Nat := 7

/-- P_LENMAX: the longest match. -/
def pLenMax : Nat := 258

/-- P_IB_CAPACITY, OPEN in the spec; the spec's model, and this one, takes it as unbounded (`none`): log entry 5. -/
def pIbCapacity : Option Nat := none

/-- P_OUT_CAPACITY, OPEN in the spec; the spec's model, and this one, takes it as unbounded (`none`): log entry 5. -/
def pOutCapacity : Option Nat := none

end Sys2Proof.Config
end

