-- ==== Sys2Proof/Syntax.lean ====
section
/-! DEFINITION. The instructions of the block, one constructor per row of spec/opcode_table.json, and the places of the
stream's grammar an instruction is decoded at. The block has no instruction words of its own: what it executes is the
compressed stream (30_encoding.md, opening), so an instruction is a field or a symbol of that stream. -/

namespace Sys2Proof

/-- Where in the stream's grammar the core stands: which header field comes next (44_gzip_framer.md R410), or which
format the next bits are read in (30_encoding.md, formats BH, ST, DH, CL, LL, D, GZT). It is the counterpart of a program
counter that 10_state.md R25 says the block does not have as a register. -/
inductive Slot where
  | gzId | gzCm | gzFlg | gzFtext | gzFlgRsv | gzFixed | gzFextra | gzFname | gzFcomment | gzFhcrc
  | bh
  | stBody
  | dhCounts | dhCll
  | cl
  | ll
  | d
  | trailer
  deriving DecidableEq, Repr

/-- One constructor per row of spec/opcode_table.json. An operand is what the row's own word leaves free: BFINAL of a
block header, the literal's byte, the code length, which of the two illegal symbols. Operands that follow the row's word
in the stream (extra bits, LEN, payloads) are read by the instruction's meaning, as the rules' pseudocode does. -/
inductive Instr where
  /-- GZ_ID (R400) -/
  | gzId
  /-- GZ_CM (R401) -/
  | gzCm
  /-- GZ_FLG (R402) -/
  | gzFlg
  /-- GZ_FIXED: MTIME, XFL, OS (R403) -/
  | gzFixed
  /-- GZ_FEXTRA (R404) -/
  | gzFextra
  /-- GZ_FNAME (R405) -/
  | gzFname
  /-- GZ_FCOMMENT (R406) -/
  | gzFcomment
  /-- GZ_FHCRC (R407) -/
  | gzFhcrc
  /-- GZ_FTEXT (R408) -/
  | gzFtext
  /-- GZ_FLG_RSV (R409) -/
  | gzFlgRsv
  /-- BLK_STORED: a block header with BTYPE 00 (R202, R204) -/
  | blkStored (bfinal : Bool)
  /-- BLK_FIXED: BTYPE 01 (R205) -/
  | blkFixed (bfinal : Bool)
  /-- BLK_DYNAMIC: BTYPE 10 (R206) -/
  | blkDynamic (bfinal : Bool)
  /-- BLK_RESERVED: BTYPE 11 (R207) -/
  | blkReserved (bfinal : Bool)
  /-- ST_BODY: padding, LEN, NLEN and the data (R204) -/
  | stBody
  /-- DH_COUNTS: HLIT, HDIST, HCLEN (R206) -/
  | dhCounts
  /-- DH_CLL: the code-length-code lengths (R208) -/
  | dhCll
  /-- CL_LEN: code-length symbols 0..15 (R210) -/
  | clLen (len : Nat)
  /-- CL_REP: code-length symbol 16 (R211) -/
  | clRep
  /-- CL_ZERO3: code-length symbol 17 (R212) -/
  | clZero3
  /-- CL_ZERO11: code-length symbol 18 (R213) -/
  | clZero11
  /-- LIT: literal/length symbols 0..255 (R300) -/
  | lit (b : Byte)
  /-- EOB: literal/length symbol 256 (R301) -/
  | eob
  /-- LEN257 (R310) -/
  | len257
  /-- LEN258 (R311) -/
  | len258
  /-- LEN259 (R312) -/
  | len259
  /-- LEN260 (R313) -/
  | len260
  /-- LEN261 (R314) -/
  | len261
  /-- LEN262 (R315) -/
  | len262
  /-- LEN263 (R316) -/
  | len263
  /-- LEN264 (R317) -/
  | len264
  /-- LEN265 (R318) -/
  | len265
  /-- LEN266 (R319) -/
  | len266
  /-- LEN267 (R320) -/
  | len267
  /-- LEN268 (R321) -/
  | len268
  /-- LEN269 (R322) -/
  | len269
  /-- LEN270 (R323) -/
  | len270
  /-- LEN271 (R324) -/
  | len271
  /-- LEN272 (R325) -/
  | len272
  /-- LEN273 (R326) -/
  | len273
  /-- LEN274 (R327) -/
  | len274
  /-- LEN275 (R328) -/
  | len275
  /-- LEN276 (R329) -/
  | len276
  /-- LEN277 (R330) -/
  | len277
  /-- LEN278 (R331) -/
  | len278
  /-- LEN279 (R332) -/
  | len279
  /-- LEN280 (R333) -/
  | len280
  /-- LEN281 (R334) -/
  | len281
  /-- LEN282 (R335) -/
  | len282
  /-- LEN283 (R336) -/
  | len283
  /-- LEN284 (R337) -/
  | len284
  /-- LEN285 (R338) -/
  | len285
  /-- ILL_LEN: literal/length symbols 286 and 287 (R340) -/
  | illLen (sym : Nat)
  /-- DIST0 (R343) -/
  | dist0
  /-- DIST1 (R344) -/
  | dist1
  /-- DIST2 (R345) -/
  | dist2
  /-- DIST3 (R346) -/
  | dist3
  /-- DIST4 (R347) -/
  | dist4
  /-- DIST5 (R348) -/
  | dist5
  /-- DIST6 (R349) -/
  | dist6
  /-- DIST7 (R350) -/
  | dist7
  /-- DIST8 (R351) -/
  | dist8
  /-- DIST9 (R352) -/
  | dist9
  /-- DIST10 (R353) -/
  | dist10
  /-- DIST11 (R354) -/
  | dist11
  /-- DIST12 (R355) -/
  | dist12
  /-- DIST13 (R356) -/
  | dist13
  /-- DIST14 (R357) -/
  | dist14
  /-- DIST15 (R358) -/
  | dist15
  /-- DIST16 (R359) -/
  | dist16
  /-- DIST17 (R360) -/
  | dist17
  /-- DIST18 (R361) -/
  | dist18
  /-- DIST19 (R362) -/
  | dist19
  /-- DIST20 (R363) -/
  | dist20
  /-- DIST21 (R364) -/
  | dist21
  /-- DIST22 (R365) -/
  | dist22
  /-- DIST23 (R366) -/
  | dist23
  /-- DIST24 (R367) -/
  | dist24
  /-- DIST25 (R368) -/
  | dist25
  /-- DIST26 (R369) -/
  | dist26
  /-- DIST27 (R370) -/
  | dist27
  /-- DIST28 (R371) -/
  | dist28
  /-- DIST29 (R372) -/
  | dist29
  /-- ILL_DIST: distance symbols 30 and 31 (R373) -/
  | illDist (sym : Nat)
  /-- GZ_TRAILER: CRC32 and ISIZE (R420) -/
  | gzTrailer
  deriving DecidableEq, Repr

end Sys2Proof
end

