-- ==== Sys2Proof/WellFormed.lean ====
section
/-! DEFINITION. Which terms of Instr stand for an encoding of the spec. -/

namespace Sys2Proof

/-- The operand ranges of the alphabets (30_encoding.md R98 to R100): a code length is 0..15, the illegal
literal/length symbols are 286 and 287, the illegal distance symbols are 30 and 31. Every other operand is in range by
its type. -/
def Instr.wf : Instr → Bool
  | .clLen len => decide (len ≤ 15)
  | .illLen sym => decide (286 ≤ sym ∧ sym ≤ 287)
  | .illDist sym => decide (30 ≤ sym ∧ sym ≤ 31)
  | .gzId => true
  | .gzCm => true
  | .gzFlg => true
  | .gzFixed => true
  | .gzFextra => true
  | .gzFname => true
  | .gzFcomment => true
  | .gzFhcrc => true
  | .gzFtext => true
  | .gzFlgRsv => true
  | .blkStored _ => true
  | .blkFixed _ => true
  | .blkDynamic _ => true
  | .blkReserved _ => true
  | .stBody => true
  | .dhCounts => true
  | .dhCll => true
  | .clRep => true
  | .clZero3 => true
  | .clZero11 => true
  | .lit _ => true
  | .eob => true
  | .len257 => true
  | .len258 => true
  | .len259 => true
  | .len260 => true
  | .len261 => true
  | .len262 => true
  | .len263 => true
  | .len264 => true
  | .len265 => true
  | .len266 => true
  | .len267 => true
  | .len268 => true
  | .len269 => true
  | .len270 => true
  | .len271 => true
  | .len272 => true
  | .len273 => true
  | .len274 => true
  | .len275 => true
  | .len276 => true
  | .len277 => true
  | .len278 => true
  | .len279 => true
  | .len280 => true
  | .len281 => true
  | .len282 => true
  | .len283 => true
  | .len284 => true
  | .len285 => true
  | .dist0 => true
  | .dist1 => true
  | .dist2 => true
  | .dist3 => true
  | .dist4 => true
  | .dist5 => true
  | .dist6 => true
  | .dist7 => true
  | .dist8 => true
  | .dist9 => true
  | .dist10 => true
  | .dist11 => true
  | .dist12 => true
  | .dist13 => true
  | .dist14 => true
  | .dist15 => true
  | .dist16 => true
  | .dist17 => true
  | .dist18 => true
  | .dist19 => true
  | .dist20 => true
  | .dist21 => true
  | .dist22 => true
  | .dist23 => true
  | .dist24 => true
  | .dist25 => true
  | .dist26 => true
  | .dist27 => true
  | .dist28 => true
  | .dist29 => true
  | .gzTrailer => true

end Sys2Proof
end

