-- ==== Sys2Proof/Decode.lean ====
section
/-! DEFINITION. The decoder and the encoder. A word of format BH, CL, LL or D is the 3-bit block header or the number of
the decoded symbol, as spec/opcode_table.json's match and mask give it; a header field of the GZH format is selected by
its place and, for an optional field, by its flag in FLG. Huffman codes are decoded from the stream by table lookup
(41_huffman_table.md R176, Machine/Huffman.lean); the fixed codes of 30_encoding.md R103 are written here as an encoder. -/

namespace Sys2Proof

/-- Why a word stands for no instruction. -/
inductive Reject where
  /-- the FLG bit that selects this optional header field is 0 (30_encoding.md R93) -/
  | flagClear
  /-- no such symbol in the code-length alphabet 0..18 (R98) -/
  | codeLengthSymbol
  /-- no such symbol in the literal/length alphabet 0..287 (R99) -/
  | literalLengthSymbol
  /-- no such symbol in the distance alphabet 0..31 (R100) -/
  | distanceSymbol
  /-- no row of the opcode table has this width and these bits -/
  | noRow
  deriving DecidableEq, Repr

/-- `Reverse(code, len)`: bit `j` of the result is bit `len - 1 - j` of `code` (41_huffman_table.md R175). -/
def reverseBits : Nat → Nat → Nat
  | _, 0 => 0
  | code, n + 1 => (code % 2) * 2 ^ n + reverseBits (code / 2) n

/-- An optional header field is there exactly when its bit of FLG is 1 (30_encoding.md R93). -/
def decodeFlag (bit : Nat) (i : Instr) (flg : Nat) : Except Reject Instr :=
  if flg.testBit bit then .ok i else .error .flagClear

/-- A 3-bit block header: BFINAL is bit 0, BTYPE bits 2..1 (30_encoding.md R94). -/
def decodeBlockHeader (w : Nat) : Instr :=
  let bfinal := w.testBit 0
  match w / 2 % 4 with
  | 0 => .blkStored bfinal
  | 1 => .blkFixed bfinal
  | 2 => .blkDynamic bfinal
  | _ => .blkReserved bfinal

/-- A symbol of the code-length alphabet (30_encoding.md R98). -/
def decodeCodeLength (w : Nat) : Except Reject Instr :=
  if w ≤ 15 then .ok (.clLen w)
  else match w with
    | 16 => .ok .clRep
    | 17 => .ok .clZero3
    | 18 => .ok .clZero11
    | _ => .error .codeLengthSymbol

/-- A length symbol 257..285 (30_encoding.md R99, R104). -/
def decodeLength (w : Nat) : Except Reject Instr :=
  match w with
  | 257 => .ok .len257
  | 258 => .ok .len258
  | 259 => .ok .len259
  | 260 => .ok .len260
  | 261 => .ok .len261
  | 262 => .ok .len262
  | 263 => .ok .len263
  | 264 => .ok .len264
  | 265 => .ok .len265
  | 266 => .ok .len266
  | 267 => .ok .len267
  | 268 => .ok .len268
  | 269 => .ok .len269
  | 270 => .ok .len270
  | 271 => .ok .len271
  | 272 => .ok .len272
  | 273 => .ok .len273
  | 274 => .ok .len274
  | 275 => .ok .len275
  | 276 => .ok .len276
  | 277 => .ok .len277
  | 278 => .ok .len278
  | 279 => .ok .len279
  | 280 => .ok .len280
  | 281 => .ok .len281
  | 282 => .ok .len282
  | 283 => .ok .len283
  | 284 => .ok .len284
  | 285 => .ok .len285
  | _ => .error .literalLengthSymbol

/-- A symbol of the literal/length alphabet (30_encoding.md R99). -/
def decodeLiteralLength (w : Nat) : Except Reject Instr :=
  if w ≤ 255 then .ok (.lit (BitVec.ofNat 8 w))
  else if w = 256 then .ok .eob
  else if w ≤ 285 then decodeLength w
  else if w ≤ 287 then .ok (.illLen w)
  else .error .literalLengthSymbol

/-- A symbol of the distance alphabet (30_encoding.md R100). -/
def decodeDistance (w : Nat) : Except Reject Instr :=
  match w with
  | 0 => .ok .dist0
  | 1 => .ok .dist1
  | 2 => .ok .dist2
  | 3 => .ok .dist3
  | 4 => .ok .dist4
  | 5 => .ok .dist5
  | 6 => .ok .dist6
  | 7 => .ok .dist7
  | 8 => .ok .dist8
  | 9 => .ok .dist9
  | 10 => .ok .dist10
  | 11 => .ok .dist11
  | 12 => .ok .dist12
  | 13 => .ok .dist13
  | 14 => .ok .dist14
  | 15 => .ok .dist15
  | 16 => .ok .dist16
  | 17 => .ok .dist17
  | 18 => .ok .dist18
  | 19 => .ok .dist19
  | 20 => .ok .dist20
  | 21 => .ok .dist21
  | 22 => .ok .dist22
  | 23 => .ok .dist23
  | 24 => .ok .dist24
  | 25 => .ok .dist25
  | 26 => .ok .dist26
  | 27 => .ok .dist27
  | 28 => .ok .dist28
  | 29 => .ok .dist29
  | 30 => .ok (.illDist 30)
  | 31 => .ok (.illDist 31)
  | _ => .error .distanceSymbol

/-- The instruction at a place of the stream. `w` is the 3-bit header at `bh`, the decoded symbol at `cl`, `ll` and `d`,
and FLG at the header fields; a field that no bit selects is what its place says, whatever `w` is. -/
def decode : Slot → Nat → Except Reject Instr
  | .gzId, _ => .ok .gzId
  | .gzCm, _ => .ok .gzCm
  | .gzFlg, _ => .ok .gzFlg
  | .gzFtext, w => decodeFlag 0 .gzFtext w
  | .gzFlgRsv, _ => .ok .gzFlgRsv
  | .gzFixed, _ => .ok .gzFixed
  | .gzFextra, w => decodeFlag 2 .gzFextra w
  | .gzFname, w => decodeFlag 3 .gzFname w
  | .gzFcomment, w => decodeFlag 4 .gzFcomment w
  | .gzFhcrc, w => decodeFlag 1 .gzFhcrc w
  | .bh, w => .ok (decodeBlockHeader w)
  | .stBody, _ => .ok .stBody
  | .dhCounts, _ => .ok .dhCounts
  | .dhCll, _ => .ok .dhCll
  | .cl, w => decodeCodeLength w
  | .ll, w => decodeLiteralLength w
  | .d, w => decodeDistance w
  | .trailer, _ => .ok .gzTrailer

/-! ### The encoder -/

/-- The place an instruction is decoded at (the "format" column of the opcode table). -/
def slotOf : Instr → Slot
  | .gzId => .gzId
  | .gzCm => .gzCm
  | .gzFlg => .gzFlg
  | .gzFixed => .gzFixed
  | .gzFextra => .gzFextra
  | .gzFname => .gzFname
  | .gzFcomment => .gzFcomment
  | .gzFhcrc => .gzFhcrc
  | .gzFtext => .gzFtext
  | .gzFlgRsv => .gzFlgRsv
  | .blkStored _ => .bh
  | .blkFixed _ => .bh
  | .blkDynamic _ => .bh
  | .blkReserved _ => .bh
  | .stBody => .stBody
  | .dhCounts => .dhCounts
  | .dhCll => .dhCll
  | .clLen _ => .cl
  | .clRep => .cl
  | .clZero3 => .cl
  | .clZero11 => .cl
  | .lit _ => .ll
  | .eob => .ll
  | .len257 => .ll
  | .len258 => .ll
  | .len259 => .ll
  | .len260 => .ll
  | .len261 => .ll
  | .len262 => .ll
  | .len263 => .ll
  | .len264 => .ll
  | .len265 => .ll
  | .len266 => .ll
  | .len267 => .ll
  | .len268 => .ll
  | .len269 => .ll
  | .len270 => .ll
  | .len271 => .ll
  | .len272 => .ll
  | .len273 => .ll
  | .len274 => .ll
  | .len275 => .ll
  | .len276 => .ll
  | .len277 => .ll
  | .len278 => .ll
  | .len279 => .ll
  | .len280 => .ll
  | .len281 => .ll
  | .len282 => .ll
  | .len283 => .ll
  | .len284 => .ll
  | .len285 => .ll
  | .illLen _ => .ll
  | .dist0 => .d
  | .dist1 => .d
  | .dist2 => .d
  | .dist3 => .d
  | .dist4 => .d
  | .dist5 => .d
  | .dist6 => .d
  | .dist7 => .d
  | .dist8 => .d
  | .dist9 => .d
  | .dist10 => .d
  | .dist11 => .d
  | .dist12 => .d
  | .dist13 => .d
  | .dist14 => .d
  | .dist15 => .d
  | .dist16 => .d
  | .dist17 => .d
  | .dist18 => .d
  | .dist19 => .d
  | .dist20 => .d
  | .dist21 => .d
  | .dist22 => .d
  | .dist23 => .d
  | .dist24 => .d
  | .dist25 => .d
  | .dist26 => .d
  | .dist27 => .d
  | .dist28 => .d
  | .dist29 => .d
  | .illDist _ => .d
  | .gzTrailer => .trailer

/-- The word of an instruction: the bits its row of the opcode table fixes, with its operand in the row's free bits. A
field that no bit selects has the word 0. -/
def encode : Instr → Nat
  | .gzId => 0x8B1F
  | .gzCm => 0x08
  | .gzFlg => 0
  | .gzFixed => 0
  | .gzFextra => 0x04
  | .gzFname => 0x08
  | .gzFcomment => 0x10
  | .gzFhcrc => 0x02
  | .gzFtext => 0x01
  | .gzFlgRsv => 0
  | .blkStored f => f.toNat
  | .blkFixed f => f.toNat + 2 * 1
  | .blkDynamic f => f.toNat + 2 * 2
  | .blkReserved f => f.toNat + 2 * 3
  | .stBody => 0
  | .dhCounts => 0
  | .dhCll => 0
  | .clLen len => len
  | .clRep => 16
  | .clZero3 => 17
  | .clZero11 => 18
  | .lit b => b.toNat
  | .eob => 256
  | .len257 => 257
  | .len258 => 258
  | .len259 => 259
  | .len260 => 260
  | .len261 => 261
  | .len262 => 262
  | .len263 => 263
  | .len264 => 264
  | .len265 => 265
  | .len266 => 266
  | .len267 => 267
  | .len268 => 268
  | .len269 => 269
  | .len270 => 270
  | .len271 => 271
  | .len272 => 272
  | .len273 => 273
  | .len274 => 274
  | .len275 => 275
  | .len276 => 276
  | .len277 => 277
  | .len278 => 278
  | .len279 => 279
  | .len280 => 280
  | .len281 => 281
  | .len282 => 282
  | .len283 => 283
  | .len284 => 284
  | .len285 => 285
  | .illLen sym => sym
  | .dist0 => 0
  | .dist1 => 1
  | .dist2 => 2
  | .dist3 => 3
  | .dist4 => 4
  | .dist5 => 5
  | .dist6 => 6
  | .dist7 => 7
  | .dist8 => 8
  | .dist9 => 9
  | .dist10 => 10
  | .dist11 => 11
  | .dist12 => 12
  | .dist13 => 13
  | .dist14 => 14
  | .dist15 => 15
  | .dist16 => 16
  | .dist17 => 17
  | .dist18 => 18
  | .dist19 => 19
  | .dist20 => 20
  | .dist21 => 21
  | .dist22 => 22
  | .dist23 => 23
  | .dist24 => 24
  | .dist25 => 25
  | .dist26 => 26
  | .dist27 => 27
  | .dist28 => 28
  | .dist29 => 29
  | .illDist sym => sym
  | .gzTrailer => 0

/-- The fixed literal/length code of a symbol and its length, most significant bit first (30_encoding.md R103). -/
def fixedLitCode (sym : Nat) : Nat × Nat :=
  if sym ≤ 143 then (0b00110000 + sym, 8)
  else if sym ≤ 255 then (0b110010000 + (sym - 144), 9)
  else if sym ≤ 279 then (0b0000000 + (sym - 256), 7)
  else (0b11000000 + (sym - 280), 8)

/-- The fixed distance code of a symbol and its length (30_encoding.md R103). -/
def fixedDistCode (sym : Nat) : Nat × Nat := (sym, 5)

/-- The bits of an instruction in the stream, first stream bit in bit 0, and how many there are: the block header as it
stands (R94), a symbol of a fixed-Huffman block by its fixed code, whose most significant bit comes first (00_scope.md
R11). The other instructions have no bits that select them in the stream. -/
def streamWord (i : Instr) : Nat × Nat :=
  match slotOf i with
  | .bh => (encode i, 3)
  | .ll => (reverseBits (fixedLitCode (encode i)).1 (fixedLitCode (encode i)).2, (fixedLitCode (encode i)).2)
  | .d => (reverseBits (fixedDistCode (encode i)).1 (fixedDistCode (encode i)).2, (fixedDistCode (encode i)).2)
  | _ => (0, 0)

/-! ### The opcode table -/

/-- One row of spec/opcode_table.json: where it is decoded, how many bits (in whole bytes) the table gives the row, and its
mask and match. -/
structure TableRow where
  slot : Slot
  nbits : Nat
  mask : Nat
  mtch : Nat
  deriving DecidableEq, Repr

/-- Rows of the opcode table: GZIP header fields. -/
def tableRowsGzh : List TableRow := [
  ⟨.gzId, 16, 0xFFFF, 0x8B1F⟩, ⟨.gzCm, 8, 0xFF, 0x8⟩, ⟨.gzFlg, 0, 0x0, 0x0⟩, ⟨.gzFixed, 0, 0x0, 0x0⟩,
  ⟨.gzFextra, 8, 0x4, 0x4⟩, ⟨.gzFname, 8, 0x8, 0x8⟩, ⟨.gzFcomment, 8, 0x10, 0x10⟩, ⟨.gzFhcrc, 8, 0x2, 0x2⟩,
  ⟨.gzFtext, 8, 0x1, 0x1⟩, ⟨.gzFlgRsv, 0, 0x0, 0x0⟩]

/-- Rows of the opcode table: block headers. -/
def tableRowsBh : List TableRow := [
  ⟨.bh, 8, 0x6, 0x0⟩, ⟨.bh, 8, 0x6, 0x2⟩, ⟨.bh, 8, 0x6, 0x4⟩, ⟨.bh, 8, 0x6, 0x6⟩]

/-- Rows of the opcode table: the stored body and the dynamic header. -/
def tableRowsStDh : List TableRow := [
  ⟨.stBody, 0, 0x0, 0x0⟩, ⟨.dhCounts, 0, 0x0, 0x0⟩, ⟨.dhCll, 0, 0x0, 0x0⟩]

/-- Rows of the opcode table: code-length symbols. -/
def tableRowsCl : List TableRow := [
  ⟨.cl, 8, 0x10, 0x0⟩, ⟨.cl, 24, 0x1F, 0x10⟩, ⟨.cl, 24, 0x1F, 0x11⟩, ⟨.cl, 24, 0x1F, 0x12⟩]

/-- Rows of the opcode table: literal/length symbols. -/
def tableRowsLl : List TableRow := [
  ⟨.ll, 16, 0x100, 0x0⟩, ⟨.ll, 16, 0x1FF, 0x100⟩, ⟨.ll, 16, 0x1FF, 0x101⟩, ⟨.ll, 16, 0x1FF, 0x102⟩,
  ⟨.ll, 16, 0x1FF, 0x103⟩, ⟨.ll, 16, 0x1FF, 0x104⟩, ⟨.ll, 16, 0x1FF, 0x105⟩, ⟨.ll, 16, 0x1FF, 0x106⟩,
  ⟨.ll, 16, 0x1FF, 0x107⟩, ⟨.ll, 16, 0x1FF, 0x108⟩, ⟨.ll, 16, 0x1FF, 0x109⟩, ⟨.ll, 16, 0x1FF, 0x10A⟩,
  ⟨.ll, 16, 0x1FF, 0x10B⟩, ⟨.ll, 16, 0x1FF, 0x10C⟩, ⟨.ll, 16, 0x1FF, 0x10D⟩, ⟨.ll, 16, 0x1FF, 0x10E⟩,
  ⟨.ll, 16, 0x1FF, 0x10F⟩, ⟨.ll, 16, 0x1FF, 0x110⟩, ⟨.ll, 16, 0x1FF, 0x111⟩, ⟨.ll, 16, 0x1FF, 0x112⟩,
  ⟨.ll, 16, 0x1FF, 0x113⟩, ⟨.ll, 16, 0x1FF, 0x114⟩, ⟨.ll, 16, 0x1FF, 0x115⟩, ⟨.ll, 16, 0x1FF, 0x116⟩,
  ⟨.ll, 16, 0x1FF, 0x117⟩, ⟨.ll, 16, 0x1FF, 0x118⟩, ⟨.ll, 16, 0x1FF, 0x119⟩, ⟨.ll, 16, 0x1FF, 0x11A⟩,
  ⟨.ll, 16, 0x1FF, 0x11B⟩, ⟨.ll, 16, 0x1FF, 0x11C⟩, ⟨.ll, 16, 0x1FF, 0x11D⟩, ⟨.ll, 16, 0x1FE, 0x11E⟩]

/-- Rows of the opcode table: distance symbols. -/
def tableRowsD : List TableRow := [
  ⟨.d, 8, 0x1F, 0x0⟩, ⟨.d, 8, 0x1F, 0x1⟩, ⟨.d, 8, 0x1F, 0x2⟩, ⟨.d, 8, 0x1F, 0x3⟩,
  ⟨.d, 8, 0x1F, 0x4⟩, ⟨.d, 16, 0x1F, 0x5⟩, ⟨.d, 16, 0x1F, 0x6⟩, ⟨.d, 24, 0x1F, 0x7⟩,
  ⟨.d, 32, 0x1F, 0x8⟩, ⟨.d, 8, 0x1F, 0x9⟩, ⟨.d, 8, 0x1F, 0xA⟩, ⟨.d, 8, 0x1F, 0xB⟩,
  ⟨.d, 8, 0x1F, 0xC⟩, ⟨.d, 8, 0x1F, 0xD⟩, ⟨.d, 8, 0x1F, 0xE⟩, ⟨.d, 8, 0x1F, 0xF⟩,
  ⟨.d, 8, 0x1F, 0x10⟩, ⟨.d, 8, 0x1F, 0x11⟩, ⟨.d, 24, 0x1F, 0x12⟩, ⟨.d, 24, 0x1F, 0x13⟩,
  ⟨.d, 24, 0x1F, 0x14⟩, ⟨.d, 24, 0x1F, 0x15⟩, ⟨.d, 24, 0x1F, 0x16⟩, ⟨.d, 24, 0x1F, 0x17⟩,
  ⟨.d, 32, 0x1F, 0x18⟩, ⟨.d, 32, 0x1F, 0x19⟩, ⟨.d, 32, 0x1F, 0x1A⟩, ⟨.d, 32, 0x1F, 0x1B⟩,
  ⟨.d, 32, 0x1F, 0x1C⟩, ⟨.d, 32, 0x1F, 0x1D⟩, ⟨.d, 8, 0x1E, 0x1E⟩]

/-- Rows of the opcode table: the trailer. -/
def tableRowsGzt : List TableRow := [
  ⟨.trailer, 0, 0x0, 0x0⟩]

/-- The opcode table, in its own order. -/
def tableRows : List TableRow :=
  tableRowsGzh ++ tableRowsBh ++ tableRowsStDh ++ tableRowsCl ++ tableRowsLl ++ tableRowsD ++ tableRowsGzt

/-- The bits of a table word that make up the word of a format: 3 of a block header, 5 of a code-length or distance
symbol, 9 of a literal/length symbol, all of a header field. -/
def slotMask : Slot → Nat
  | .bh => 7
  | .cl => 31
  | .d => 31
  | .ll => 511
  | .gzId | .gzCm | .gzFlg | .gzFtext | .gzFlgRsv | .gzFixed | .gzFextra | .gzFname | .gzFcomment | .gzFhcrc => 0xFFFF
  | .stBody | .dhCounts | .dhCll | .trailer => 0xFFFF

/-- The row that reads a bare table word. Rows of different formats share words (the word 2 is GZ_FHCRC, BLK_FIXED and
DIST2), because the place in the stream selects the format; a bare word is read by the first row of its width whose match
is the word itself, and if there is none by the first row of its width that matches it under its mask (log entry 10). -/
def tableRow (nbits w : Nat) : Option TableRow :=
  match tableRows.find? fun r => r.nbits == nbits && w == r.mtch with
  | some r => some r
  | none => tableRows.find? fun r => r.nbits == nbits && (w &&& r.mask) == r.mtch

/-- The instruction the decoder reads from a bare table word, and the place it is decoded at. -/
def decodeTable (nbits w : Nat) : Except Reject (Slot × Instr) :=
  match tableRow nbits w with
  | none => .error .noRow
  | some r =>
    match decode r.slot (w &&& slotMask r.slot) with
    | .ok i => .ok (r.slot, i)
    | .error e => .error e

/-- The instruction the decoder reads from a word of the opcode table (none where it refuses). -/
def decodeTableWord (nbits w : Nat) : Option Instr :=
  match decodeTable nbits w with
  | .ok (_, i) => some i
  | .error _ => none

end Sys2Proof
end

