-- ==== Sys2Proof/Machine/State.lean ====
section
/-! DEFINITION. The state of the block as plain data (10_state.md), the outcomes that stop the model, and reset
(70_reset_and_hazards.md R550). -/

namespace Sys2Proof.Machine

/-- PHASE (10_state.md R26): which unit H_RUN executes next. -/
inductive Phase where
  | header | block | trailer | done | error
  deriving DecidableEq, Repr

/-- RESULT (10_state.md R33): the outcome of the last H_RUN; `idle` means not run since reset. -/
inductive RunResult where
  | idle | needMore | done | error
  deriving DecidableEq, Repr

/-- CFG_VERIFY (10_state.md R36). The reserved encoding 3 never takes effect (R473), so it is no value here. -/
inductive VerifyMode where
  | off | warn | fatal
  deriving DecidableEq, Repr

/-- The causes of InvalidDeflateBlock (60_exceptions.md R502). -/
inductive DeflateDetail where
  | reservedBtype | lenNlen | repeatAtZero | emptyCode | clOverrun | oversubscribed | unassignedCode | distTooFar
  deriving DecidableEq, Repr

/-- The fatal errors of 60_exceptions.md R501 with their details (R502). -/
inductive FatalError where
  | truncated
  | invalidGzipSignature
  | unsupportedCompressionMethod (cm : Byte)
  | invalidDeflateBlock (detail : DeflateDetail)
  | lenSym
  | distSym
  | badCrc
  | badSize
  deriving DecidableEq, Repr

/-- A Huffman table (41_huffman_table.md R170): two parallel arrays of `2^m` slots indexed by the peeked bits; a slot whose
`codeLen` is 0 is empty. -/
structure Table where
  m : Nat
  min : Nat
  symbol : List Nat
  codeLen : List Nat
  deriving DecidableEq, Repr

/-- A table with one empty slot: the value of a table that no block has built (log entry 2). -/
def Table.empty : Table := { m := 0, min := 0, symbol := [0], codeLen := [0] }

/-- Unit-local state: it exists only while a unit runs (10_state.md R38; FLG by 44_gzip_framer.md R402). -/
structure Locals where
  /-- FLG, local to the header unit (R402) -/
  flg : Byte
  /-- BFINAL of the current block (R202) -/
  bfinal : Bool
  /-- BTYPE of the current block (R202) -/
  btype : BitVec 2
  /-- HLIT (R206) -/
  hlit : Nat
  /-- HDIST (R206) -/
  hdist : Nat
  /-- HCLEN (R206) -/
  hclen : Nat
  /-- the code-length vector `Lv` (R209) -/
  lens : List Nat
  /-- CL_T -/
  clT : Table
  /-- LIT_T -/
  litT : Table
  /-- DIST_T -/
  distT : Table
  /-- the length value of the back-reference being read, formed by R302 before its distance symbol is decoded -/
  len : Nat
  deriving DecidableEq, Repr

/-- The unit-local state outside a unit: the spec gives it no value there and no rule reads it (R38; log entry 2). -/
def Locals.initial : Locals :=
  { flg := 0, bfinal := false, btype := 0, hlit := 0, hdist := 0, hclen := 0, lens := [],
    clT := Table.empty, litT := Table.empty, distT := Table.empty, len := 0 }

/-- Where the core stands: stopped between two host transactions, or inside H_RUN at a place of the stream's grammar
(log entry 1). -/
inductive Ctl where
  | idle
  | run (p : Slot)
  deriving DecidableEq, Repr

/-- The host's transactions (46_host_interface.md R470). -/
inductive HostReq where
  | reset
  | append (chunk : List Byte)
  | close
  | config (v : BitVec 2)
  | run
  | read (r : Nat)
  | out (i : Nat)
  deriving DecidableEq, Repr

/-- What a transaction gives back to the host (46_host_interface.md R470, column "host gets back"). -/
inductive Reply where
  | nothing
  | result (r : RunResult)
  | register (v : Word)
  | byte (b : Option Byte)
  deriving DecidableEq, Repr

/-- Everything the spec gives the block (10_state.md R20 to R38), and, last, the model's own fields: where the core stands,
the host's pending transactions and the host's last reply (log entries 1 and 3). -/
structure State where
  /-- IB_DATA (R20) -/
  ibData : List Byte
  /-- IB_OFF (R21) -/
  ibOff : Nat
  /-- IB_END (R22) -/
  ibEnd : Bool
  /-- BR_BUF (R23) -/
  brBuf : Acc
  /-- BR_LEN (R24) -/
  brLen : Nat
  /-- PHASE (R26) -/
  phase : Phase
  /-- FINAL (R27) -/
  final : Bool
  /-- WIN (R28) -/
  win : List Byte
  /-- OUT (R29) -/
  out : List Byte
  /-- CRC_ACC (R30) -/
  crcAcc : Word
  /-- TOTAL_OUT (R31) -/
  totalOut : Word
  /-- TRL_CRC (R32) -/
  trlCrc : Word
  /-- TRL_ISIZE (R32) -/
  trlIsize : Word
  /-- RESULT (R33) -/
  result : RunResult
  /-- ERR_CODE (R34) -/
  errCode : BitVec 8
  /-- ERR_DETAIL (R34) -/
  errDetail : BitVec 8
  /-- WARN_CRC (R35) -/
  warnCrc : Bool
  /-- WARN_SIZE (R35) -/
  warnSize : Bool
  /-- CFG_VERIFY (R36) -/
  cfgVerify : VerifyMode
  /-- SNAP_OFF (R37) -/
  snapOff : Nat
  /-- SNAP_BUF (R37) -/
  snapBuf : Acc
  /-- SNAP_LEN (R37) -/
  snapLen : Nat
  /-- SNAP_WLEN (R37) -/
  snapWlen : Nat
  /-- block-local and header-local state (R38, R402) -/
  loc : Locals
  /-- MODEL'S OWN: where the core stands (log entry 1) -/
  ctl : Ctl
  /-- MODEL'S OWN: the transactions the host will issue next, in order (log entry 3) -/
  host : List HostReq
  /-- MODEL'S OWN: what the last transaction gave back to the host (log entry 3) -/
  reply : Reply
  deriving DecidableEq, Repr

/-- P_VERIFY_RESET (00_scope.md R7): the reset value of CFG_VERIFY. -/
def pVerifyReset : VerifyMode := .off

/-- The state after H_RESET and at power-on (70_reset_and_hazards.md R550, R551), with no host transaction pending. -/
def State.reset : State :=
  { ibData := [], ibOff := 0, ibEnd := false, brBuf := 0, brLen := 0,
    phase := .header, final := false, win := [], out := [], crcAcc := 0, totalOut := 0,
    trlCrc := 0, trlIsize := 0, result := .idle, errCode := 0, errDetail := 0,
    warnCrc := false, warnSize := false, cfgVerify := pVerifyReset,
    snapOff := 0, snapBuf := 0, snapLen := 0, snapWlen := 0,
    loc := Locals.initial, ctl := .idle, host := [], reply := .nothing }

/-- Why the model stops. The block itself never stops this way: its own errors are states (PHASE = ERROR). -/
inductive Fault where
  /-- Raised by `step` when the table in force yields a symbol outside its alphabet, or the core stands at an optional
  header field whose flag is 0. No table that Build makes and no run does so (Obligations.StepNeverStops); the spec gives
  no behaviour for such a state. Safe: the model stops where nothing is stated. -/
  | noInstruction (p : Slot) (why : Reject)
  deriving DecidableEq, Repr

/-- Why an instruction has no meaning here. -/
inductive Refusal where
  /-- Raised by an arm of `exec` whose instruction is not modelled yet; no arm is. Safe. -/
  | notModelled (mnemonic : String)
  deriving DecidableEq, Repr

end Sys2Proof.Machine
end

