-- ==== Sys2Proof/Machine/Ops.lean ====
section
/-! DEFINITION. The shared operations: the outcome of a read, the ChunkBuffer and BitReader (40_input_bitreader.md), the
window (20_memory.md R65, R66), the unit snapshot, suspension, and the entry into a fatal error with reset, the only way
out of it (46_host_interface.md R475, R477; 60_exceptions.md R510, R511). -/

namespace Sys2Proof.Machine

/-! ### Outcomes of a read (00_scope.md R10, 60_exceptions.md R500) -/

/-- The four outcome classes, each with the state it leaves. `ready` lets the unit go on; the other three stop it. -/
inductive Rd (α : Type) where
  | ready (v : α) (s : State)
  | needMoreOpen (s : State)
  | needMoreClosed (s : State)
  | fatal (e : FatalError) (s : State)

/-- `v <- P(...)` of the pseudocode: an outcome other than `ready` stops the enclosing unit at once (R10). -/
def Rd.bind {α β : Type} (r : Rd α) (f : α → State → Rd β) : Rd β :=
  match r with
  | .ready v s => f v s
  | .needMoreOpen s => .needMoreOpen s
  | .needMoreClosed s => .needMoreClosed s
  | .fatal e s => .fatal e s

/-! ### ChunkBuffer -/

/-- `IbAppend(chunk)` (R131): ignored once the stream is closed. -/
def ibAppend (chunk : List Byte) (s : State) : State :=
  if s.ibEnd then s else { s with ibData := s.ibData ++ chunk }

/-- `IbCloseEnd()` (R132). -/
def ibCloseEnd (s : State) : State := { s with ibEnd := true }

/-- `avail` (R133): the bytes received and not consumed. -/
def avail (s : State) : Nat := s.ibData.length - s.ibOff

/-- The outcome of a request that cannot be met (R133). -/
def underflow {α : Type} (s : State) : Rd α :=
  if s.ibEnd then .needMoreClosed s else .needMoreOpen s

/-- `IbTake()` (R134). -/
def ibTake (s : State) : Rd Byte :=
  if s.ibOff < s.ibData.length then
    .ready (s.ibData.getD s.ibOff 0) { s with ibOff := s.ibOff + 1 }
  else underflow s

/-- `IbTryTake(n)` (R135): all or nothing. No unit calls it. -/
def ibTryTake (n : Nat) (s : State) : Rd (List Byte) :=
  if n ≤ avail s then
    .ready ((s.ibData.drop s.ibOff).take n) { s with ibOff := s.ibOff + n }
  else underflow s

/-- `IbPeekByte()` (R136): no side effect. No unit calls it. -/
def ibPeekByte (s : State) : Rd Byte :=
  if s.ibOff < s.ibData.length then .ready (s.ibData.getD s.ibOff 0) s else underflow s

/-- `IbCheckpoint()` (R137). -/
def ibCheckpoint (s : State) : State := { s with snapOff := s.ibOff }

/-- `IbRestore()` (R137). -/
def ibRestore (s : State) : State := { s with ibOff := s.snapOff }

/-- `repeat n times: IbTake()`, the values discarded (44_gzip_framer.md R403, R404, R407). -/
def ibSkip : Nat → State → Rd Unit
  | 0, s => .ready () s
  | n + 1, s => (ibTake s).bind fun _ s => ibSkip n s

/-- `repeat b <- IbTake() until b = 0` with at most `fuel` takes that succeed; with `fuel = avail s` the bound is never
what ends it, because a take past the last byte underflows (R405). -/
def ibSkipNulLoop : Nat → State → Rd Unit
  | 0, s => underflow s
  | fuel + 1, s => (ibTake s).bind fun b s => if b = 0 then .ready () s else ibSkipNulLoop fuel s

/-- `repeat b <- IbTake() until b = 0` (44_gzip_framer.md R405, R406). -/
def ibSkipNul (s : State) : Rd Unit := ibSkipNulLoop (avail s) s

/-! ### BitReader -/

/-- One round of `BrFill` (R139): a whole byte above the `BR_LEN` valid bits. -/
def brPush (b : Byte) (s : State) : State :=
  { s with brBuf := s.brBuf ||| (b.setWidth 64 <<< s.brLen), brLen := s.brLen + 8 }

/-- The loop of `BrFill(n)` with at most `fuel` rounds. -/
def brFillLoop : Nat → Nat → State → Rd Unit
  | 0, _, s => .ready () s
  | fuel + 1, n, s =>
    if s.brLen < n then (ibTake s).bind fun b s => brFillLoop fuel n (brPush b s) else .ready () s

/-- `BrFill(n)` (R139): `n` rounds are enough, since each adds 8 bits. -/
def brFill (n : Nat) (s : State) : Rd Unit := brFillLoop n n s

/-- `BrDrop(n)` (R142). -/
def brDrop (n : Nat) (s : State) : State :=
  { s with brBuf := s.brBuf >>> n, brLen := s.brLen - n }

/-- `BrPeek(n)` (R141): the low `n` bits, nothing consumed. -/
def brPeek (n : Nat) (s : State) : Rd Nat :=
  (brFill n s).bind fun _ s => .ready (s.brBuf.toNat % 2 ^ n) s

/-- `BrShift(n)` (R140): the low `n` bits, consumed; `BrShift(0)` is 0 and reads nothing. -/
def brShift (n : Nat) (s : State) : Rd Nat :=
  (brFill n s).bind fun _ s => .ready (s.brBuf.toNat % 2 ^ n) (brDrop n s)

/-- `BrAlign()` (R143): drops the bits of the current partial byte and keeps whole bytes (90_conflicts.md C2). -/
def brAlign (s : State) : State := brDrop (s.brLen % 8) s

/-- `n` bytes through `BrShift(8)`, the first the least significant (20_memory.md R71, R72; 44_gzip_framer.md R420). -/
def brWordLe : Nat → State → Rd Nat
  | 0, s => .ready 0 s
  | n + 1, s => (brShift 8 s).bind fun b s => (brWordLe n s).bind fun r s => .ready (b + 256 * r) s

/-! ### Window -/

/-- `WinWrite(b)` (20_memory.md R65). -/
def winWrite (b : Byte) (s : State) : State := { s with win := s.win ++ [b] }

/-- `WinRead(d)` (20_memory.md R66), with the precondition `1 ≤ d ≤ |WIN|` at every call. -/
def winRead (d : Nat) (s : State) : Byte := s.win.getD (s.win.length - d) 0

/-- `repeat LEN times: b <- BrShift(8); WinWrite(b)` (42_deflate_blocks.md R204). -/
def copyStored : Nat → State → Rd Unit
  | 0, s => .ready () s
  | n + 1, s => (brShift 8 s).bind fun b s => copyStored n (winWrite (BitVec.ofNat 8 b) s)

/-- `repeat len times: WinWrite(WinRead(dist))`, evaluated again for each byte (43_deflate_symbols.md R303). -/
def copyMatch : Nat → Nat → State → State
  | 0, _, s => s
  | n + 1, dist, s => copyMatch n dist (winWrite (winRead dist s) s)

/-! ### Units -/

/-- The core's next place in the stream's grammar. -/
def goto (p : Slot) (s : State) : State := { s with ctl := .run p }

/-- `Snapshot()` (46_host_interface.md R475). -/
def snapshot (s : State) : State :=
  { ibCheckpoint s with snapBuf := s.brBuf, snapLen := s.brLen, snapWlen := s.win.length }

/-- `Restore()` (46_host_interface.md R477; the window by 20_memory.md R68). Unit-local state is discarded (R38, R477). -/
def restore (s : State) : State :=
  { ibRestore s with
    brBuf := s.snapBuf, brLen := s.snapLen, win := s.win.take s.snapWlen, loc := Locals.initial }

/-- `H_RUN` returns `r` to the host (46_host_interface.md R474). -/
def returnToHost (r : RunResult) (s : State) : State :=
  { s with result := r, ctl := .idle, reply := .result r }

/-- Suspension on `NeedMoreOpen` (46_host_interface.md R474, R477; 60_exceptions.md R513). -/
def suspend (s : State) : State := returnToHost .needMore (restore s)

/-- The first field or format of the unit that PHASE selects (46_host_interface.md R474). -/
def firstSlot : Phase → Ctl
  | .header => .run .gzId
  | .block => .run .bh
  | .trailer => .run .trailer
  | .done => .idle
  | .error => .idle

/-- The head of the run loop: a snapshot, then the unit that PHASE selects (46_host_interface.md R474). -/
def startUnit (s : State) : State := { snapshot s with ctl := firstSlot s.phase }

/-! ### Fatal errors -/

/-- ERR_CODE (60_exceptions.md R501). -/
def FatalError.code : FatalError → BitVec 8
  | .truncated => 1
  | .invalidGzipSignature => 2
  | .unsupportedCompressionMethod _ => 3
  | .invalidDeflateBlock _ => 4
  | .lenSym => 5
  | .distSym => 5
  | .badCrc => 6
  | .badSize => 7

/-- The ERR_DETAIL of a cause of InvalidDeflateBlock (60_exceptions.md R502). -/
def DeflateDetail.code : DeflateDetail → BitVec 8
  | .reservedBtype => 1
  | .lenNlen => 2
  | .repeatAtZero => 3
  | .emptyCode => 4
  | .clOverrun => 5
  | .oversubscribed => 6
  | .unassignedCode => 7
  | .distTooFar => 8

/-- ERR_DETAIL (60_exceptions.md R502). -/
def FatalError.detail : FatalError → BitVec 8
  | .truncated => 0
  | .invalidGzipSignature => 0
  | .unsupportedCompressionMethod cm => cm
  | .invalidDeflateBlock d => d.code
  | .lenSym => 1
  | .distSym => 2
  | .badCrc => 0
  | .badSize => 0

/-- `ErrorEntry(c, d)` (60_exceptions.md R510): the one way into PHASE = ERROR. Nothing is restored; H_RUN returns. -/
def errorEntry (e : FatalError) (s : State) : State :=
  returnToHost .error { s with errCode := e.code, errDetail := e.detail, phase := .error }

/-- `H_RESET` (70_reset_and_hazards.md R550), the only way out of PHASE = ERROR (60_exceptions.md R511). What the host has
still to issue is the host's, not the block's. -/
def hReset (s : State) : State := { State.reset with host := s.host }

/-- The end of what an instruction does (46_host_interface.md R474): go on, suspend, or enter the error; `NeedMoreClosed`
becomes Truncated (60_exceptions.md R512). -/
def settle : Rd Unit → State
  | .ready _ s => s
  | .needMoreOpen s => suspend s
  | .needMoreClosed s => errorEntry .truncated s
  | .fatal e s => errorEntry e s

/-- An instruction's outcome: always a next state, since suspension and fatal errors are states of the block. -/
def finish (r : Rd Unit) : Host.Outcome State Fault Refusal := .next (settle r)

end Sys2Proof.Machine
end

