-- ==== Sys2Proof/Machine/Flags.lean ====
section
/-! DEFINITION. The accumulators, the verification flags and the packing of the host's registers (45_crc32_validator.md;
10_state.md R41, R42). The block computes no arithmetic flags (R41). -/

namespace Sys2Proof.Machine

/-- One bit of the CRC register (45_crc32_validator.md R440). -/
def crcBit (r : Word) : Word := if r.getLsbD 0 then (r >>> 1) ^^^ 0xEDB88320#32 else r >>> 1

/-- `n` bits of the CRC register. -/
def crcBits : Nat → Word → Word
  | 0, r => r
  | n + 1, r => crcBits n (crcBit r)

/-- One byte of the CRC register (R440). -/
def crcByte (r : Word) (b : Byte) : Word := crcBits 8 (r ^^^ b.setWidth 32)

/-- `CrcUpdate(c, bytes)` (R440). -/
def crcUpdate (c : Word) (bytes : List Byte) : Word :=
  (bytes.foldl crcByte (c ^^^ 0xFFFFFFFF#32)) ^^^ 0xFFFFFFFF#32

/-- `CRC32(bytes)` (R440). -/
def crc32 (bytes : List Byte) : Word := crcUpdate 0 bytes

/-- `(TOTAL_OUT + n) mod 2^32` (R442). -/
def sizeUpdate (t : Word) (n : Nat) : Word := t + BitVec.ofNat 32 n

/-- `Verify(c, s)` (R443 to R446), on the values of CRC_ACC, TOTAL_OUT and CFG_VERIFY at this point. -/
def verify (c sz : Word) (s : State) : Rd Unit :=
  match s.cfgVerify with
  | .off => .ready () s
  | .warn =>
    .ready () { s with warnCrc := s.warnCrc || c != s.crcAcc, warnSize := s.warnSize || sz != s.totalOut }
  | .fatal =>
    if c ≠ s.crcAcc then .fatal .badCrc s
    else if sz ≠ s.totalOut then .fatal .badSize s
    else .ready () s

/-- The encoding of RESULT in STATUS (10_state.md R42). -/
def RunResult.code : RunResult → Nat
  | .idle => 0
  | .needMore => 1
  | .done => 2
  | .error => 3

/-- The encoding of PHASE in STATUS (10_state.md R42). -/
def Phase.code : Phase → Nat
  | .header => 0
  | .block => 1
  | .trailer => 2
  | .done => 3
  | .error => 4

/-- The encoding of CFG_VERIFY (10_state.md R36). -/
def VerifyMode.code : VerifyMode → Nat
  | .off => 0
  | .warn => 1
  | .fatal => 2

/-- The mode a written value selects; 3 selects none (46_host_interface.md R473). -/
def VerifyMode.ofBits (v : BitVec 2) : Option VerifyMode :=
  if v = 0 then some .off else if v = 1 then some .warn else if v = 2 then some .fatal else none

/-- HR0, STATUS (10_state.md R42). -/
def hrStatus (s : State) : Word :=
  BitVec.ofNat 32 (s.result.code + 2 ^ 4 * s.phase.code + 2 ^ 8 * s.final.toNat + 2 ^ 9 * s.ibEnd.toNat
    + 2 ^ 16 * s.warnCrc.toNat + 2 ^ 17 * s.warnSize.toNat)

/-- HR1, ERR (10_state.md R42). -/
def hrErr (s : State) : Word := BitVec.ofNat 32 (s.errCode.toNat + 2 ^ 8 * s.errDetail.toNat)

/-- The register `HR<r>` (10_state.md R42); a number above 7 reads as 0 (46_host_interface.md R478). -/
def hostRegister (r : Nat) (s : State) : Word :=
  match r with
  | 0 => hrStatus s
  | 1 => hrErr s
  | 2 => BitVec.ofNat 32 s.cfgVerify.code
  | 3 => s.crcAcc
  | 4 => s.totalOut
  | 5 => s.trlCrc
  | 6 => s.trlIsize
  | 7 => BitVec.ofNat 32 s.ibOff
  | _ => 0

end Sys2Proof.Machine
end

