-- ==== Sys2Proof/Machine/Rom.lean ====
section
/-! DEFINITION. The constant tables of the block (10_state.md R39; 30_encoding.md R104 to R106; 41_huffman_table.md R180),
never written. -/

namespace Sys2Proof.Machine

/-- LBASE (30_encoding.md R104). -/
def lbase : List Nat :=
  [3, 4, 5, 6, 7, 8, 9, 10, 11, 13, 15, 17, 19, 23, 27, 31, 35, 43, 51, 59, 67, 83, 99, 115, 131, 163, 195, 227, 258]

/-- LEXTRA (30_encoding.md R104). -/
def lextra : List Nat :=
  [0, 0, 0, 0, 0, 0, 0, 0, 1, 1, 1, 1, 2, 2, 2, 2, 3, 3, 3, 3, 4, 4, 4, 4, 5, 5, 5, 5, 0]

/-- DBASE (30_encoding.md R106). -/
def dbase : List Nat :=
  [1, 2, 3, 4, 5, 7, 9, 13, 17, 25, 33, 49, 65, 97, 129, 193, 257, 385, 513, 769, 1025, 1537, 2049, 3073, 4097, 6145,
    8193, 12289, 16385, 24577]

/-- DEXTRA (30_encoding.md R106). -/
def dextra : List Nat :=
  [0, 0, 0, 0, 1, 1, 2, 2, 3, 3, 4, 4, 5, 5, 6, 6, 7, 7, 8, 8, 9, 9, 10, 10, 11, 11, 12, 12, 13, 13]

/-- PERM (30_encoding.md R105): the k-th 3-bit length read is the length of code-length symbol `PERM[k]`. -/
def perm : List Nat :=
  [16, 17, 18, 0, 8, 7, 9, 6, 10, 5, 11, 4, 12, 3, 13, 2, 14, 1, 15]

/-- FL (41_huffman_table.md R180): the code lengths of the fixed literal/length code. -/
def fixedLitLengths : List Nat :=
  List.replicate 144 8 ++ List.replicate 112 9 ++ List.replicate 24 7 ++ List.replicate 8 8

/-- FD (41_huffman_table.md R180): the code lengths of the fixed distance code. -/
def fixedDistLengths : List Nat := List.replicate 32 5

end Sys2Proof.Machine
end

