-- ==== Sys2Proof/Machine/Huffman.lean ====
section
/-! DEFINITION. Huffman table construction and the fixed tables (41_huffman_table.md R172 to R180). -/

namespace Sys2Proof.Machine

/-- `code` after round `b` of the first loop of R172: the first code of length `b`. `count[0]` is 0. -/
def firstCode (lens : List Nat) : Nat → Nat
  | 0 => 0
  | b + 1 => (firstCode lens b + if b = 0 then 0 else lens.count b) * 2

/-- The vector `next[0..15]` before the second loop of R172. -/
def firstCodes (lens : List Nat) : List Nat := (List.range (Config.pMaxBits + 1)).map (firstCode lens)

/-- The second loop of R172: the code of each symbol in ascending order (0 for a symbol without a code). -/
def assignCodes : List Nat → List Nat → List Nat
  | [], _ => []
  | l :: ls, next =>
    if l = 0 then 0 :: assignCodes ls next
    else next.getD l 0 :: assignCodes ls (next.set l (next.getD l 0 + 1))

/-- The code of every symbol of a vector of code lengths (R172). -/
def canonicalCodes (lens : List Nat) : List Nat := assignCodes lens (firstCodes lens)

/-- The largest code length, `max L`. -/
def maxLen (lens : List Nat) : Nat := lens.foldl max 0

/-- The smallest non-zero code length, 0 if there is none. -/
def minLen (lens : List Nat) : Nat :=
  (lens.filter (· ≠ 0)).foldl (fun a l => if a = 0 then l else min a l) 0

/-- The loop of R174 over the lengths `b, b+1, ..`, `k` of them, from the value `left`: true if `left` never gets negative. -/
def prefixCodeLoop (lens : List Nat) : Nat → Nat → Int → Bool
  | 0, _, _ => true
  | k + 1, b, left =>
    let left' := 2 * left - (lens.count b : Int)
    if left' < 0 then false else prefixCodeLoop lens k (b + 1) left'

/-- The check of R174: the lengths can form a prefix code (an incomplete one included). -/
def isPrefixCode (lens : List Nat) : Bool := prefixCodeLoop lens (maxLen lens) 1 1

/-- A symbol that has a code: its number, its code length and its bit-reversed code `Reverse(code_i, L[i])` (R175). -/
structure CodeWord where
  sym : Nat
  len : Nat
  rev : Nat
  deriving DecidableEq, Repr

/-- The code words of the symbols from `i` on, in ascending order, from their lengths and codes. -/
def codeWordsFrom : Nat → List Nat → List Nat → List CodeWord
  | i, l :: ls, c :: cs =>
    if l = 0 then codeWordsFrom (i + 1) ls cs
    else ⟨i, l, reverseBits c l⟩ :: codeWordsFrom (i + 1) ls cs
  | _, _, _ => []

/-- The code words of a vector of code lengths, in ascending order of the symbol. -/
def codeWords (lens : List Nat) : List CodeWord := codeWordsFrom 0 lens (canonicalCodes lens)

/-- What slot `j` holds after the symbols' writes in order: `(symbol, codeLen)`, `(0, 0)` if none wrote it (R175). -/
def slotEntry (ws : List CodeWord) (j : Nat) : Nat × Nat :=
  ws.foldl (fun e w => if j % 2 ^ w.len = w.rev then (w.sym, w.len) else e) (0, 0)

/-- All `2^m` slots after the writes. The spec writes symbol by symbol, each into all its slots; here the two loops are
exchanged, slot by slot, which gives the same slots (Obligations.TableFillIsTheSpecLoop). -/
def slotList (ws : List CodeWord) (m : Nat) : List (Nat × Nat) := (List.range (2 ^ m)).map (slotEntry ws)

/-- The fill of R175. -/
def fillTable (lens : List Nat) : Table :=
  let slots := slotList (codeWords lens) (maxLen lens)
  { m := maxLen lens, min := minLen lens, symbol := slots.map Prod.fst, codeLen := slots.map Prod.snd }

/-- R175's own inner loop: one symbol written into every slot `j` with `j mod 2^L[i] = r`. -/
def writeSymbol (w : CodeWord) (slots : List (Nat × Nat)) : List (Nat × Nat) :=
  slots.mapIdx fun j e => if j % 2 ^ w.len = w.rev then (w.sym, w.len) else e

/-- R175 as it is written: every slot starts empty, then the symbols are written in ascending order. -/
def fillSpecLoop (lens : List Nat) : List (Nat × Nat) :=
  (codeWords lens).foldl (fun slots w => writeSymbol w slots) (List.replicate (2 ^ maxLen lens) (0, 0))

/-- `Build(L)` (R172 to R177): the empty code, then the over-subscribed code, then the table. -/
def build (lens : List Nat) : Except DeflateDetail Table :=
  if lens.all (· == 0) then .error .emptyCode
  else if isPrefixCode lens then .ok (fillTable lens)
  else .error .oversubscribed

/-- `Build` inside a unit: its error is a fatal error of the unit (R173, R174). -/
def buildTable (lens : List Nat) (s : State) : Rd Table :=
  match build lens with
  | .ok t => .ready t s
  | .error d => .fatal (.invalidDeflateBlock d) s

/-- A table of the ROM, whose code lengths are legal. -/
def romTable (lens : List Nat) : Table :=
  match build lens with
  | .ok t => t
  | .error _ => Table.empty

/-- FIXED_LIT_T (R180). -/
def fixedLitT : Table := romTable fixedLitLengths

/-- FIXED_DIST_T (R180). -/
def fixedDistT : Table := romTable fixedDistLengths

end Sys2Proof.Machine
end

