-- ==== Sys2Proof/Machine/Operands.lean ====
section
/-! DEFINITION. The operand forms: a Huffman-coded symbol, a length and a distance with extra bits, a repeat count
(41_huffman_table.md R176; 43_deflate_symbols.md R302 to R304; 42_deflate_blocks.md R209). -/

namespace Sys2Proof.Machine

/-- The literal/length table in force: FIXED_LIT_T in a fixed block, LIT_T otherwise (42_deflate_blocks.md R205, R206). -/
def litTable (s : State) : Table := if s.loc.btype = 1 then fixedLitT else s.loc.litT

/-- The distance table in force (42_deflate_blocks.md R205, R206). -/
def distTable (s : State) : Table := if s.loc.btype = 1 then fixedDistT else s.loc.distT

/-- `Decode(T)` (41_huffman_table.md R176): peek `T.m` bits, look the slot up, consume its code length. -/
def decodeSymbol (t : Table) (s : State) : Rd Nat :=
  (brPeek t.m s).bind fun i s =>
    if t.codeLen.getD i 0 = 0 then .fatal (.invalidDeflateBlock .unassignedCode) s
    else .ready (t.symbol.getD i 0) (brDrop (t.codeLen.getD i 0) s)

/-- The length value of index `k = sym - 257` (43_deflate_symbols.md R302). -/
def lengthValue (k : Nat) (s : State) : Rd Nat :=
  (brShift (lextra.getD k 0) s).bind fun e s => .ready (min (lbase.getD k 0 + e) Config.pLenMax) s

/-- The distance value of symbol `d` (43_deflate_symbols.md R304). -/
def distanceValue (d : Nat) (s : State) : Rd Nat :=
  (brShift (dextra.getD d 0) s).bind fun e s => .ready (dbase.getD d 0 + e) s

/-- `Copy(len, dist)` (43_deflate_symbols.md R303): the check on the window as it is when the copy starts, then the bytes. -/
def copyBackRef (len dist : Nat) (s : State) : Rd Unit :=
  if s.win.length < dist then .fatal (.invalidDeflateBlock .distTooFar) s
  else .ready () (copyMatch len dist s)

/-- The code lengths `n = HLIT + HDIST` a dynamic header gives (42_deflate_blocks.md R206, R209). -/
def codeLengthCount (s : State) : Nat := s.loc.hlit + s.loc.hdist

end Sys2Proof.Machine
end

