-- ==== Sys2Proof/Machine/Units.lean ====
section
/-! DEFINITION. What the end of a unit does: the commits of 46_host_interface.md R476 with the phase transitions of R474,
and the tables of a dynamic block (42_deflate_blocks.md R215). -/

namespace Sys2Proof.Machine

/-- Header commit: nothing beyond the consumed input, then PHASE = BLOCK and the next unit (44_gzip_framer.md R410). -/
def commitHeader (s : State) : State :=
  startUnit { s with phase := .block, loc := Locals.initial }

/-- The bytes the current block decoded: `WIN[SNAP_WLEN .. |WIN|)` (42_deflate_blocks.md R201). -/
def newBytes (s : State) : List Byte := s.win.drop s.snapWlen

/-- The effects of R201: OUT, CRC_ACC, TOTAL_OUT and FINAL. -/
def emitBlock (s : State) : State :=
  { s with
    out := s.out ++ newBytes s
    crcAcc := crcUpdate s.crcAcc (newBytes s)
    totalOut := sizeUpdate s.totalOut (newBytes s).length
    final := s.final || s.loc.bfinal }

/-- Block commit (R201), then PHASE = TRAILER after a final block and BLOCK otherwise, and the next unit (R474). -/
def commitBlock (s : State) : State :=
  startUnit { emitBlock s with
    phase := if s.loc.bfinal then .trailer else .block, loc := Locals.initial }

/-- Trailer commit: PHASE = DONE, and H_RUN returns DONE (R474). -/
def commitTrailer (s : State) : State :=
  returnToHost .done { s with phase := .done, loc := Locals.initial }

/-- The optional header fields in order (44_gzip_framer.md R410): the first one from `FHCRC` on that FLG selects, or the
header's commit. -/
def afterComment (s : State) : State :=
  if s.loc.flg.getLsbD 1 then goto .gzFhcrc s else commitHeader s

/-- The optional fields from FCOMMENT on. -/
def afterName (s : State) : State :=
  if s.loc.flg.getLsbD 4 then goto .gzFcomment s else afterComment s

/-- The optional fields from FNAME on. -/
def afterExtra (s : State) : State :=
  if s.loc.flg.getLsbD 3 then goto .gzFname s else afterName s

/-- The optional fields from FEXTRA on. -/
def afterFixed (s : State) : State :=
  if s.loc.flg.getLsbD 2 then goto .gzFextra s else afterExtra s

/-- `BuildBlockTables(Lv, HLIT, HDIST)` (42_deflate_blocks.md R215): LIT_T first, then DIST_T, then the body. -/
def buildBlockTables (s : State) : Rd Unit :=
  (buildTable (s.loc.lens.take s.loc.hlit) s).bind fun lt s =>
    (buildTable ((s.loc.lens.drop s.loc.hlit).take s.loc.hdist) s).bind fun dt s =>
      .ready () (goto .ll { s with loc := { s.loc with litT := lt, distT := dt } })

/-- The head of the loop of R209 after lengths were appended: another symbol, or the tables once all `n` are there. -/
def nextCodeLength (s : State) : Rd Unit :=
  if s.loc.lens.length < codeLengthCount s then .ready () (goto .cl s) else buildBlockTables s

/-- Appends lengths to `Lv`. -/
def appendLens (ls : List Nat) (s : State) : State :=
  { s with loc := { s.loc with lens := s.loc.lens ++ ls } }

/-- A repeat of `r` lengths `v` (R209), with the overrun check of R214 before anything is appended. -/
def appendRun (r v : Nat) (s : State) : Rd Unit :=
  if codeLengthCount s < s.loc.lens.length + r then .fatal (.invalidDeflateBlock .clOverrun) s
  else nextCodeLength (appendLens (List.replicate r v) s)

/-- The loop of R208: the k-th 3-bit length goes to slot `PERM[k]`, for the slots still to come. -/
def readCll : List Nat → List Nat → State → Rd (List Nat)
  | [], cll, s => .ready cll s
  | p :: ps, cll, s => (brShift 3 s).bind fun v s => readCll ps (cll.set p v) s

end Sys2Proof.Machine
end

