-- ==== Sys2Proof/Machine/Blocks.lean ====
section
/-! DEFINITION. The DEFLATE block parser: block headers, the stored body, the dynamic header and its code-length symbols
(42_deflate_blocks.md). -/

namespace Sys2Proof.Machine

/-- BFINAL and BTYPE of the block that begins (R202). -/
def openBlock (bfinal : Bool) (btype : BitVec 2) (s : State) : State :=
  { s with loc := { s.loc with bfinal := bfinal, btype := btype } }

/-- BLK_STORED (R204): the stored body follows. -/
def execBlkStored (bfinal : Bool) (s : State) : Host.Outcome State Fault Refusal :=
  finish (.ready () (goto .stBody (openBlock bfinal 0 s)))

/-- BLK_FIXED (R205): the body follows at once, with the fixed tables. -/
def execBlkFixed (bfinal : Bool) (s : State) : Host.Outcome State Fault Refusal :=
  finish (.ready () (goto .ll (openBlock bfinal 1 s)))

/-- BLK_DYNAMIC (R206): the dynamic header follows. -/
def execBlkDynamic (bfinal : Bool) (s : State) : Host.Outcome State Fault Refusal :=
  finish (.ready () (goto .dhCounts (openBlock bfinal 2 s)))

/-- BLK_RESERVED (R207): fatal, raised right after the three header bits. -/
def execBlkReserved (bfinal : Bool) (s : State) : Host.Outcome State Fault Refusal :=
  finish (.fatal (.invalidDeflateBlock .reservedBtype) (openBlock bfinal 3 s))

/-- ST_BODY (R204): padding dropped, LEN and NLEN, then LEN bytes; the block then ends. -/
def execStBody (s : State) : Host.Outcome State Fault Refusal :=
  finish ((brShift 16 (brAlign s)).bind fun len s => (brShift 16 s).bind fun nlen s =>
    if len ≠ 0xFFFF - nlen then .fatal (.invalidDeflateBlock .lenNlen) s
    else (copyStored len s).bind fun _ s => .ready () (commitBlock s))

/-- DH_COUNTS (R206): HLIT, HDIST and HCLEN. -/
def execDhCounts (s : State) : Host.Outcome State Fault Refusal :=
  finish ((brShift 5 s).bind fun hlit s => (brShift 5 s).bind fun hdist s => (brShift 4 s).bind fun hclen s =>
    .ready () (goto .dhCll
      { s with loc := { s.loc with hlit := hlit + 257, hdist := hdist + 1, hclen := hclen + 4 } }))

/-- DH_CLL (R208): HCLEN lengths of 3 bits in PERM order, the slots not named 0; then CL_T and an empty `Lv` (R209). -/
def execDhCll (s : State) : Host.Outcome State Fault Refusal :=
  finish ((readCll (perm.take s.loc.hclen) (List.replicate 19 0) s).bind fun cll s =>
    (buildTable cll s).bind fun t s =>
      .ready () (goto .cl { s with loc := { s.loc with clT := t, lens := [] } }))

/-- CL_LEN (R210): one code length. -/
def execClLen (len : Nat) (s : State) : Host.Outcome State Fault Refusal :=
  finish (nextCodeLength (appendLens [len] s))

/-- CL_REP (R211): the check at `|Lv| = 0` comes before the 2 extra bits are read. -/
def execClRep (s : State) : Host.Outcome State Fault Refusal :=
  finish (if s.loc.lens = [] then .fatal (.invalidDeflateBlock .repeatAtZero) s
    else (brShift 2 s).bind fun e s => appendRun (3 + e) (s.loc.lens.getLastD 0) s)

/-- CL_ZERO3 (R212). -/
def execClZero3 (s : State) : Host.Outcome State Fault Refusal :=
  finish ((brShift 3 s).bind fun e s => appendRun (3 + e) 0 s)

/-- CL_ZERO11 (R213). -/
def execClZero11 (s : State) : Host.Outcome State Fault Refusal :=
  finish ((brShift 7 s).bind fun e s => appendRun (11 + e) 0 s)

end Sys2Proof.Machine
end

