-- ==== Sys2Proof/Machine/Framer.lean ====
section
/-! DEFINITION. The GZIP framer: the header's fields and the trailer (44_gzip_framer.md). -/

namespace Sys2Proof.Machine

/-- GZ_ID (R400): both bytes are read before either is compared. -/
def execGzId (s : State) : Host.Outcome State Fault Refusal :=
  finish ((ibTake s).bind fun id1 s => (ibTake s).bind fun id2 s =>
    if id1 ≠ 0x1F ∨ id2 ≠ 0x8B then .fatal .invalidGzipSignature s else .ready () (goto .gzCm s))

/-- GZ_CM (R401). -/
def execGzCm (s : State) : Host.Outcome State Fault Refusal :=
  finish ((ibTake s).bind fun cm s =>
    if cm ≠ 8 then .fatal (.unsupportedCompressionMethod cm) s else .ready () (goto .gzFlg s))

/-- GZ_FLG (R402): FLG is kept while the header unit runs. GZ_FTEXT comes next when its bit is 1, else GZ_FLG_RSV. -/
def execGzFlg (s : State) : Host.Outcome State Fault Refusal :=
  finish ((ibTake s).bind fun flg s =>
    .ready () (goto (if flg.getLsbD 0 then .gzFtext else .gzFlgRsv) { s with loc := { s.loc with flg := flg } }))

/-- GZ_FTEXT (R408): no effect on decoding. -/
def execGzFtext (s : State) : Host.Outcome State Fault Refusal :=
  finish (.ready () (goto .gzFlgRsv s))

/-- GZ_FLG_RSV (R409): FLG bits 5..7 are ignored; no byte is read for them. -/
def execGzFlgRsv (s : State) : Host.Outcome State Fault Refusal :=
  finish (.ready () (goto .gzFixed s))

/-- GZ_FIXED (R403): MTIME, XFL and OS, six bytes discarded. -/
def execGzFixed (s : State) : Host.Outcome State Fault Refusal :=
  finish ((ibSkip 6 s).bind fun _ s => .ready () (afterFixed s))

/-- GZ_FEXTRA (R404): XLEN, little-endian, then XLEN bytes discarded. -/
def execGzFextra (s : State) : Host.Outcome State Fault Refusal :=
  finish ((ibTake s).bind fun lo s => (ibTake s).bind fun hi s =>
    (ibSkip (lo.toNat + 256 * hi.toNat) s).bind fun _ s => .ready () (afterExtra s))

/-- GZ_FNAME (R405). -/
def execGzFname (s : State) : Host.Outcome State Fault Refusal :=
  finish ((ibSkipNul s).bind fun _ s => .ready () (afterName s))

/-- GZ_FCOMMENT (R406). -/
def execGzFcomment (s : State) : Host.Outcome State Fault Refusal :=
  finish ((ibSkipNul s).bind fun _ s => .ready () (afterComment s))

/-- GZ_FHCRC (R407): two bytes, compared with nothing; the header's last field. -/
def execGzFhcrc (s : State) : Host.Outcome State Fault Refusal :=
  finish ((ibSkip 2 s).bind fun _ s => .ready () (commitHeader s))

/-- GZ_TRAILER (R420): CRC32 and ISIZE from the next byte boundary, then `Verify` (45_crc32_validator.md R443). The
registers TRL_CRC and TRL_ISIZE are written once all eight bytes are read. -/
def execGzTrailer (s : State) : Host.Outcome State Fault Refusal :=
  finish ((brWordLe 4 (brAlign s)).bind fun c s => (brWordLe 4 s).bind fun sz s =>
    (verify (BitVec.ofNat 32 c) (BitVec.ofNat 32 sz)
      { s with trlCrc := BitVec.ofNat 32 c, trlIsize := BitVec.ofNat 32 sz }).bind fun _ s =>
        .ready () (commitTrailer s))

end Sys2Proof.Machine
end

