-- ==== Sys2Proof/Machine/Symbols.lean ====
section
/-! DEFINITION. The symbols of a Huffman block body (43_deflate_symbols.md): literal, end of block, lengths and distances. -/

namespace Sys2Proof.Machine

/-- LIT (R300): the byte is appended to the window; it reaches OUT when the block commits. -/
def execLit (b : Byte) (s : State) : Host.Outcome State Fault Refusal :=
  finish (.ready () (goto .ll (winWrite b s)))

/-- EOB (R301): the block ends and commits (42_deflate_blocks.md R201). -/
def execEob (s : State) : Host.Outcome State Fault Refusal :=
  finish (.ready () (commitBlock s))

/-- A length symbol of index `k` (R302): its value is kept for the copy, and the distance symbol comes next. -/
def lengthSymbol (k : Nat) (s : State) : Rd Unit :=
  (lengthValue k s).bind fun len s => .ready () (goto .d { s with loc := { s.loc with len := len } })

/-- A distance symbol `d` (R304), then the copy of the length that stands before it (R303). -/
def distanceSymbol (d : Nat) (s : State) : Rd Unit :=
  (distanceValue d s).bind fun dist s => (copyBackRef s.loc.len dist s).bind fun _ s => .ready () (goto .ll s)

/-- LEN257 (R310). -/
def execLen257 (s : State) : Host.Outcome State Fault Refusal := finish (lengthSymbol 0 s)

/-- LEN258 (R311). -/
def execLen258 (s : State) : Host.Outcome State Fault Refusal := finish (lengthSymbol 1 s)

/-- LEN259 (R312). -/
def execLen259 (s : State) : Host.Outcome State Fault Refusal := finish (lengthSymbol 2 s)

/-- LEN260 (R313). -/
def execLen260 (s : State) : Host.Outcome State Fault Refusal := finish (lengthSymbol 3 s)

/-- LEN261 (R314). -/
def execLen261 (s : State) : Host.Outcome State Fault Refusal := finish (lengthSymbol 4 s)

/-- LEN262 (R315). -/
def execLen262 (s : State) : Host.Outcome State Fault Refusal := finish (lengthSymbol 5 s)

/-- LEN263 (R316). -/
def execLen263 (s : State) : Host.Outcome State Fault Refusal := finish (lengthSymbol 6 s)

/-- LEN264 (R317). -/
def execLen264 (s : State) : Host.Outcome State Fault Refusal := finish (lengthSymbol 7 s)

/-- LEN265 (R318). -/
def execLen265 (s : State) : Host.Outcome State Fault Refusal := finish (lengthSymbol 8 s)

/-- LEN266 (R319). -/
def execLen266 (s : State) : Host.Outcome State Fault Refusal := finish (lengthSymbol 9 s)

/-- LEN267 (R320). -/
def execLen267 (s : State) : Host.Outcome State Fault Refusal := finish (lengthSymbol 10 s)

/-- LEN268 (R321). -/
def execLen268 (s : State) : Host.Outcome State Fault Refusal := finish (lengthSymbol 11 s)

/-- LEN269 (R322). -/
def execLen269 (s : State) : Host.Outcome State Fault Refusal := finish (lengthSymbol 12 s)

/-- LEN270 (R323). -/
def execLen270 (s : State) : Host.Outcome State Fault Refusal := finish (lengthSymbol 13 s)

/-- LEN271 (R324). -/
def execLen271 (s : State) : Host.Outcome State Fault Refusal := finish (lengthSymbol 14 s)

/-- LEN272 (R325). -/
def execLen272 (s : State) : Host.Outcome State Fault Refusal := finish (lengthSymbol 15 s)

/-- LEN273 (R326). -/
def execLen273 (s : State) : Host.Outcome State Fault Refusal := finish (lengthSymbol 16 s)

/-- LEN274 (R327). -/
def execLen274 (s : State) : Host.Outcome State Fault Refusal := finish (lengthSymbol 17 s)

/-- LEN275 (R328). -/
def execLen275 (s : State) : Host.Outcome State Fault Refusal := finish (lengthSymbol 18 s)

/-- LEN276 (R329). -/
def execLen276 (s : State) : Host.Outcome State Fault Refusal := finish (lengthSymbol 19 s)

/-- LEN277 (R330). -/
def execLen277 (s : State) : Host.Outcome State Fault Refusal := finish (lengthSymbol 20 s)

/-- LEN278 (R331). -/
def execLen278 (s : State) : Host.Outcome State Fault Refusal := finish (lengthSymbol 21 s)

/-- LEN279 (R332). -/
def execLen279 (s : State) : Host.Outcome State Fault Refusal := finish (lengthSymbol 22 s)

/-- LEN280 (R333). -/
def execLen280 (s : State) : Host.Outcome State Fault Refusal := finish (lengthSymbol 23 s)

/-- LEN281 (R334). -/
def execLen281 (s : State) : Host.Outcome State Fault Refusal := finish (lengthSymbol 24 s)

/-- LEN282 (R335). -/
def execLen282 (s : State) : Host.Outcome State Fault Refusal := finish (lengthSymbol 25 s)

/-- LEN283 (R336). -/
def execLen283 (s : State) : Host.Outcome State Fault Refusal := finish (lengthSymbol 26 s)

/-- LEN284 (R337). -/
def execLen284 (s : State) : Host.Outcome State Fault Refusal := finish (lengthSymbol 27 s)

/-- LEN285 (R338). -/
def execLen285 (s : State) : Host.Outcome State Fault Refusal := finish (lengthSymbol 28 s)

/-- ILL_LEN (R340): fatal right after the symbol, no extra bits read. -/
def execIllLen (_sym : Nat) (s : State) : Host.Outcome State Fault Refusal := finish (.fatal .lenSym s)

/-- DIST0 (R343). -/
def execDist0 (s : State) : Host.Outcome State Fault Refusal := finish (distanceSymbol 0 s)

/-- DIST1 (R344). -/
def execDist1 (s : State) : Host.Outcome State Fault Refusal := finish (distanceSymbol 1 s)

/-- DIST2 (R345). -/
def execDist2 (s : State) : Host.Outcome State Fault Refusal := finish (distanceSymbol 2 s)

/-- DIST3 (R346). -/
def execDist3 (s : State) : Host.Outcome State Fault Refusal := finish (distanceSymbol 3 s)

/-- DIST4 (R347). -/
def execDist4 (s : State) : Host.Outcome State Fault Refusal := finish (distanceSymbol 4 s)

/-- DIST5 (R348). -/
def execDist5 (s : State) : Host.Outcome State Fault Refusal := finish (distanceSymbol 5 s)

/-- DIST6 (R349). -/
def execDist6 (s : State) : Host.Outcome State Fault Refusal := finish (distanceSymbol 6 s)

/-- DIST7 (R350). -/
def execDist7 (s : State) : Host.Outcome State Fault Refusal := finish (distanceSymbol 7 s)

/-- DIST8 (R351). -/
def execDist8 (s : State) : Host.Outcome State Fault Refusal := finish (distanceSymbol 8 s)

/-- DIST9 (R352). -/
def execDist9 (s : State) : Host.Outcome State Fault Refusal := finish (distanceSymbol 9 s)

/-- DIST10 (R353). -/
def execDist10 (s : State) : Host.Outcome State Fault Refusal := finish (distanceSymbol 10 s)

/-- DIST11 (R354). -/
def execDist11 (s : State) : Host.Outcome State Fault Refusal := finish (distanceSymbol 11 s)

/-- DIST12 (R355). -/
def execDist12 (s : State) : Host.Outcome State Fault Refusal := finish (distanceSymbol 12 s)

/-- DIST13 (R356). -/
def execDist13 (s : State) : Host.Outcome State Fault Refusal := finish (distanceSymbol 13 s)

/-- DIST14 (R357). -/
def execDist14 (s : State) : Host.Outcome State Fault Refusal := finish (distanceSymbol 14 s)

/-- DIST15 (R358). -/
def execDist15 (s : State) : Host.Outcome State Fault Refusal := finish (distanceSymbol 15 s)

/-- DIST16 (R359). -/
def execDist16 (s : State) : Host.Outcome State Fault Refusal := finish (distanceSymbol 16 s)

/-- DIST17 (R360). -/
def execDist17 (s : State) : Host.Outcome State Fault Refusal := finish (distanceSymbol 17 s)

/-- DIST18 (R361). -/
def execDist18 (s : State) : Host.Outcome State Fault Refusal := finish (distanceSymbol 18 s)

/-- DIST19 (R362). -/
def execDist19 (s : State) : Host.Outcome State Fault Refusal := finish (distanceSymbol 19 s)

/-- DIST20 (R363). -/
def execDist20 (s : State) : Host.Outcome State Fault Refusal := finish (distanceSymbol 20 s)

/-- DIST21 (R364). -/
def execDist21 (s : State) : Host.Outcome State Fault Refusal := finish (distanceSymbol 21 s)

/-- DIST22 (R365). -/
def execDist22 (s : State) : Host.Outcome State Fault Refusal := finish (distanceSymbol 22 s)

/-- DIST23 (R366). -/
def execDist23 (s : State) : Host.Outcome State Fault Refusal := finish (distanceSymbol 23 s)

/-- DIST24 (R367). -/
def execDist24 (s : State) : Host.Outcome State Fault Refusal := finish (distanceSymbol 24 s)

/-- DIST25 (R368). -/
def execDist25 (s : State) : Host.Outcome State Fault Refusal := finish (distanceSymbol 25 s)

/-- DIST26 (R369). -/
def execDist26 (s : State) : Host.Outcome State Fault Refusal := finish (distanceSymbol 26 s)

/-- DIST27 (R370). -/
def execDist27 (s : State) : Host.Outcome State Fault Refusal := finish (distanceSymbol 27 s)

/-- DIST28 (R371). -/
def execDist28 (s : State) : Host.Outcome State Fault Refusal := finish (distanceSymbol 28 s)

/-- DIST29 (R372). -/
def execDist29 (s : State) : Host.Outcome State Fault Refusal := finish (distanceSymbol 29 s)

/-- ILL_DIST (R373): fatal right after the symbol, no extra bits read. -/
def execIllDist (_sym : Nat) (s : State) : Host.Outcome State Fault Refusal := finish (.fatal .distSym s)

end Sys2Proof.Machine
end

