-- ==== Sys2Proof/Machine/HostTxn.lean ====
section
/-! DEFINITION. The host's transactions (46_host_interface.md R470 to R478). Each is atomic and happens only while the core
is stopped (00_scope.md R6, 20_memory.md R80). -/

namespace Sys2Proof.Machine

/-- `H_APPEND(chunk)` (R471). -/
def hAppend (chunk : List Byte) (s : State) : State := { ibAppend chunk s with reply := .nothing }

/-- `H_CLOSE` (R472). -/
def hClose (s : State) : State := { ibCloseEnd s with reply := .nothing }

/-- `H_CONFIG(v)` (R473): the reserved value 3 changes nothing. -/
def hConfig (v : BitVec 2) (s : State) : State :=
  match VerifyMode.ofBits v with
  | some m => { s with cfgVerify := m, reply := .nothing }
  | none => { s with reply := .nothing }

/-- The beginning of `H_RUN` (R474): in DONE and ERROR it returns at once; else the first unit starts, and the core's steps
carry the transaction on until it returns. -/
def hRun (s : State) : State :=
  match s.phase with
  | .done => returnToHost .done s
  | .error => returnToHost .error s
  | .header => startUnit s
  | .block => startUnit s
  | .trailer => startUnit s

/-- `H_READ(r)` (R478): no state of the block changes. -/
def hRead (r : Nat) (s : State) : State := { s with reply := .register (hostRegister r s) }

/-- `H_OUT(i)` (R478): `OUT[i]`, or NONE past its end. -/
def hOut (i : Nat) (s : State) : State := { s with reply := .byte s.out[i]? }

/-- One host transaction (R470). -/
def hostTxn : HostReq → State → State
  | .reset, s => hReset s
  | .append chunk, s => hAppend chunk s
  | .close, s => hClose s
  | .config v, s => hConfig v s
  | .run, s => hRun s
  | .read r, s => hRead r s
  | .out i, s => hOut i s

/-- The host's next transaction, if it issues one; a host that issues none changes nothing (R479, R480). -/
def hostStep (s : State) : State :=
  match s.host with
  | [] => s
  | t :: ts => hostTxn t { s with host := ts }

end Sys2Proof.Machine
end

