-- ==== Sys2Proof/Machine/Fetch.lean ====
section
/-! DEFINITION. Fetching: how the next instruction is read from the stream at the core's place in the grammar, and how a
given instruction is put where the next fetch reads it. -/

namespace Sys2Proof.Machine

/-- The instruction at the core's place. A block header is read by `BrShift(1)` and `BrShift(2)` (42_deflate_blocks.md
R202), a symbol by `Decode` with the table in force (41_huffman_table.md R176; 42_deflate_blocks.md R209; 43_deflate_symbols.md
R304, R305). A header field is selected by its place and FLG, and reads nothing by itself. -/
def fetch (p : Slot) (s : State) : Rd (Except Reject Instr) :=
  match p with
  | .bh => (brShift 1 s).bind fun f s => (brShift 2 s).bind fun t s => .ready (decode .bh (f + 2 * t)) s
  | .cl => (decodeSymbol s.loc.clT s).bind fun w s => .ready (decode .cl w) s
  | .ll => (decodeSymbol (litTable s) s).bind fun w s => .ready (decode .ll w) s
  | .d => (decodeSymbol (distTable s) s).bind fun w s => .ready (decode .d w) s
  | .gzId | .gzCm | .gzFlg | .gzFtext | .gzFlgRsv | .gzFixed | .gzFextra | .gzFname | .gzFcomment | .gzFhcrc =>
    .ready (decode p s.loc.flg.toNat) s
  | .stBody | .dhCounts | .dhCll | .trailer => .ready (decode p s.loc.flg.toNat) s

/-! ### Placing an instruction -/

/-- `n` bytes of a number, least significant first (20_memory.md R71). -/
def natBytes : Nat → Nat → List Byte
  | 0, _ => []
  | n + 1, v => BitVec.ofNat 8 v :: natBytes n (v / 256)

/-- Bytes put at the read cursor of an empty BitReader, with zeros after them (every operand that follows reads as 0). -/
def placeBytes (bs : List Byte) (s : State) : State :=
  { s with
    ibData := s.ibData.take s.ibOff ++ bs ++ List.replicate 16 0
    ibOff := (s.ibData.take s.ibOff).length
    brBuf := 0
    brLen := 0 }

/-- A code-length table in which every symbol has a code of 5 bits, its own number most significant bit first. It is used
by `withFetchWord` alone: a code-length symbol has no fixed code in the spec. -/
def flatClT : Table := romTable (List.replicate 19 5)

/-- The phase in which a place of the grammar is reached (46_host_interface.md R474). -/
def slotPhase : Slot → Phase
  | .gzId | .gzCm | .gzFlg | .gzFtext | .gzFlgRsv | .gzFixed | .gzFextra | .gzFname | .gzFcomment | .gzFhcrc => .header
  | .bh | .stBody | .dhCounts | .dhCll | .cl | .ll | .d => .block
  | .trailer => .trailer

/-- The unit-local state the fetch of `i` needs: FLG for a header field, the fixed tables for a literal/length or distance
symbol, the flat table and lengths still to come for a code-length symbol. -/
def placeLocals (p : Slot) (i : Instr) (l : Locals) : Locals :=
  match p with
  | .ll | .d => { l with btype := 1 }
  | .cl => { l with clT := flatClT, lens := [], hlit := 257, hdist := 1 }
  | .gzFtext | .gzFextra | .gzFname | .gzFcomment | .gzFhcrc => { l with flg := BitVec.ofNat 8 (encode i) }
  | .gzId | .gzCm | .gzFlg | .gzFlgRsv | .gzFixed => l
  | .bh | .stBody | .dhCounts | .dhCll | .trailer => l

/-- The bytes the fetch and the meaning of `i` read first. -/
def placeStream (p : Slot) (i : Instr) : List Byte :=
  match p with
  | .gzId => natBytes 2 (encode i)
  | .gzCm | .gzFlg => natBytes 1 (encode i)
  | .bh | .ll | .d => natBytes 2 (streamWord i).1
  | .cl => natBytes 1 (reverseBits (encode i) 5)
  | .gzFtext | .gzFlgRsv | .gzFixed | .gzFextra | .gzFname | .gzFcomment | .gzFhcrc => []
  | .stBody | .dhCounts | .dhCll | .trailer => []

/-- The core put at the place of `i`, with the bits of `i` next in the stream. -/
def placeInstr (p : Slot) (i : Instr) (s : State) : State :=
  { placeBytes (placeStream p i) s with
    phase := slotPhase p, loc := placeLocals p i s.loc, ctl := .run p }

/-- `s` with the instruction of a table word where the next step fetches it; `s` itself where no row has the word. -/
def placeTableWord (nbits w : Nat) (s : State) : State :=
  match decodeTable nbits w with
  | .ok (p, i) => placeInstr p i s
  | .error _ => s

end Sys2Proof.Machine
end

