-- ==== Sys2Proof/Machine/Step.lean ====
section
/-! DEFINITION. One step: a host transaction while the core is stopped, one instruction of the stream while it runs. -/

namespace Sys2Proof.Machine

/-- One step. While the core is stopped the host's next transaction happens; inside H_RUN the core fetches and executes one
field or symbol of the stream. An underflow or a fatal error of the fetch ends the unit as one of the meaning does. -/
def step (s : State) : Host.Outcome State Fault Refusal :=
  match s.ctl with
  | .idle => .next (hostStep s)
  | .run p =>
    match fetch p s with
    | .ready (.ok i) s' => exec i s'
    | .ready (.error e) _ => .fault (.noInstruction p e)
    | .needMoreOpen s' => finish (.needMoreOpen s')
    | .needMoreClosed s' => finish (.needMoreClosed s')
    | .fatal e s' => finish (.fatal e s')

/-- `s` with the instruction of the table word `w` where step fetches its next instruction (log entry 11). -/
def State.withFetchWord (s : State) (nbits w : Nat) : State := placeTableWord nbits w s

end Sys2Proof.Machine
end

