-- ==== Sys2Proof/Machine/Stream.lean ====
section
/-! DEFINITION. Views of the state in which statements are made: the pending bits of the stream as one number, the state
after a number of bits was drawn, and H_RUN as the one transaction the host sees. Nothing here is part of a step. -/

namespace Sys2Proof.Machine

/-- The stream cursor `POS = 8·IB_OFF − BR_LEN` (10_state.md R25). -/
def pos (s : State) : Nat := 8 * s.ibOff - s.brLen

/-- How many bits are pending: those in BR_BUF and those of the bytes received and not consumed (10_state.md R40). -/
def availBits (s : State) : Nat := s.brLen + 8 * avail s

/-- A byte sequence as a number, the first byte the least significant (20_memory.md R71). -/
def bytesNat : List Byte → Nat
  | [] => 0
  | b :: bs => b.toNat + 256 * bytesNat bs

/-- All pending bits as one number, the next stream bit in bit 0 (00_scope.md R11, 20_memory.md R72). -/
def pending (s : State) : Nat := s.brBuf.toNat + 2 ^ s.brLen * bytesNat (s.ibData.drop s.ibOff)

/-- How many bytes `BrFill(n)` takes when they are there (40_input_bitreader.md R139). -/
def fillBytes (n : Nat) (s : State) : Nat := (n - s.brLen + 7) / 8

/-- The state after `k` bytes moved from the ChunkBuffer into BR_BUF. -/
def pulled (k : Nat) (s : State) : State :=
  { s with
    ibOff := s.ibOff + k
    brLen := s.brLen + 8 * k
    brBuf := BitVec.ofNat 64 (pending s % 2 ^ (s.brLen + 8 * k)) }

/-- The state after `n` bits were peeked (R141). -/
def peeked (n : Nat) (s : State) : State := pulled (fillBytes n s) s

/-- The state after `n` bits were drawn (R140). -/
def drawn (n : Nat) (s : State) : State := brDrop n (peeked n s)

/-- The state after a BitReader read found too few bits: every byte there is was taken (R144). -/
def drained (s : State) : State := pulled (avail s) s

/-- The state after `n` bytes were taken straight from the ChunkBuffer (R134). -/
def taken (n : Nat) (s : State) : State := { s with ibOff := s.ibOff + n }

/-- The state after `n` fields of `w` bits each were drawn by `BrShift(w)`: the bytes of a stored block or a trailer
(`w = 8`, 40_input_bitreader.md R146), the lengths of the code-length code (`w = 3`, 42_deflate_blocks.md R208). -/
def drawnFields (w : Nat) : Nat → State → State
  | 0, s => s
  | n + 1, s => drawnFields w n (drawn w s)

/-- The next `n` bytes of the stream, when no partial byte is pending (40_input_bitreader.md R146). -/
def streamBytes (n : Nat) (s : State) : List Byte := natBytes n (pending s)

/-- What a run does when a read finds too little input: Truncated if the stream is closed, suspension if it is open
(46_host_interface.md R474; 60_exceptions.md R512, R513). -/
def stopShort (s : State) : State := if s.ibEnd then errorEntry .truncated s else suspend s

/-- The state an outcome leaves. -/
def Rd.state {α : Type} : Rd α → State
  | .ready _ s => s
  | .needMoreOpen s => s
  | .needMoreClosed s => s
  | .fatal _ s => s

/-- The bytes received and not consumed (10_state.md R40). -/
def unread (s : State) : List Byte := s.ibData.drop s.ibOff

/-- The BitReader's invariant (10_state.md R23, R24; 40_input_bitreader.md R145): at most 23 valid bits, zeros above them. -/
abbrev BitsOk (buf : Acc) (len : Nat) : Prop := len ≤ 23 ∧ buf.toNat < 2 ^ len

/-- The structure of a Huffman table over an alphabet of `n` symbols (41_huffman_table.md R170, R171, R181). -/
abbrev Table.Ok (n : Nat) (t : Table) : Prop :=
  t.m ≤ Config.pMaxBits ∧ t.symbol.length = 2 ^ t.m ∧ t.codeLen.length = 2 ^ t.m ∧
    (∀ x ∈ t.codeLen, x ≤ t.m) ∧ ∀ x ∈ t.symbol, x < n

/-- The form the storage spaces of 20_memory.md R60 keep: the read cursor and its checkpoint inside the input (R21, R37), a
clean bit accumulator and its snapshot, and table memories of `2^m` slots over their alphabets. -/
abbrev Memory.wf (s : State) : Prop :=
  s.ibOff ≤ s.ibData.length ∧ s.snapOff ≤ s.ibData.length ∧ BitsOk s.brBuf s.brLen ∧ BitsOk s.snapBuf s.snapLen ∧
    s.loc.clT.Ok 19 ∧ s.loc.litT.Ok 288 ∧ s.loc.distT.Ok 32

/-- The ranges of the unit-local values: HLIT, HDIST, HCLEN and the code lengths (30_encoding.md R97, R98), the length of a
back-reference (43_deflate_symbols.md R302). -/
abbrev Locals.Ok (l : Locals) : Prop :=
  l.hlit ≤ 288 ∧ l.hdist ≤ 32 ∧ l.hclen ≤ 19 ∧ (∀ x ∈ l.lens, x ≤ Config.pMaxBits) ∧ l.len ≤ Config.pLenMax

/-- The FLG bit that must be 1 for the core to stand at an optional header field (30_encoding.md R93). -/
abbrev slotFlagSet (p : Slot) (flg : Byte) : Prop :=
  match p with
  | .gzFtext => flg.getLsbD 0 = true
  | .gzFhcrc => flg.getLsbD 1 = true
  | .gzFextra => flg.getLsbD 2 = true
  | .gzFname => flg.getLsbD 3 = true
  | .gzFcomment => flg.getLsbD 4 = true
  | .gzId | .gzCm | .gzFlg | .gzFlgRsv | .gzFixed => True
  | .bh | .stBody | .dhCounts | .dhCll | .cl | .ll | .d | .trailer => True

/-- Where the core may stand: in a place of the unit that PHASE selects (46_host_interface.md R474). Outside a unit, and
where a unit begins, there is no unit-local state (10_state.md R38); after an error its value is left open (R510). -/
abbrev ControlOk (s : State) : Prop :=
  match s.ctl with
  | .idle => s.phase = .error ∨ s.loc = Locals.initial
  | .run p => s.phase = slotPhase p ∧ slotFlagSet p s.loc.flg ∧
      (p = .gzId ∨ p = .bh ∨ p = .trailer → s.loc = Locals.initial)

/-- The stream cursors: the bits in BR_BUF came from consumed bytes, so POS is a natural number (10_state.md R25), at the
cursor and at its snapshot; and while a unit runs the snapshot is not ahead of the cursor (40_input_bitreader.md R137). -/
abbrev CursorOk (s : State) : Prop :=
  s.brLen ≤ 8 * s.ibOff ∧ s.snapLen ≤ 8 * s.snapOff ∧ (s.ctl ≠ .idle → s.snapOff ≤ s.ibOff)

/-- The structural invariant: storage, unit-local ranges, control and cursors. -/
abbrev StructOk (s : State) : Prop := Memory.wf s ∧ s.loc.Ok ∧ ControlOk s ∧ CursorOk s

/-- The accumulators' invariant (45_crc32_validator.md R441, R442). -/
abbrev AccumOk (s : State) : Prop := s.crcAcc = crc32 s.out ∧ s.totalOut = BitVec.ofNat 32 s.out.length

/-- What OUT is of WIN (20_memory.md R63, R68, R76): outside a unit all of it, inside a unit what the committed units wrote
(only a block unit writes more), after an error a beginning of it. -/
abbrev WindowOk (s : State) : Prop :=
  match s.ctl with
  | .run p => s.out = s.win.take s.snapWlen ∧ s.snapWlen ≤ s.win.length ∧
      (slotPhase p ≠ .block → s.snapWlen = s.win.length)
  | .idle => if s.phase = .error then s.out <+: s.win else s.out = s.win

/-- What PHASE, FINAL, RESULT and the error registers say of one another (10_state.md R26, R27, R34; 46_host_interface.md
R483). -/
abbrev StatusOk (s : State) : Prop :=
  (s.phase = .error ↔ s.errCode ≠ 0) ∧ (s.errCode = 0 → s.errDetail = 0) ∧ s.errCode.toNat ≤ 7 ∧
    ((s.phase = .trailer ∨ s.phase = .done) → s.final = true) ∧
    ((s.phase = .header ∨ s.phase = .block) → s.final = false) ∧
    (s.phase = .error → s.result = .error) ∧ (s.phase = .done → s.result = .done)

/-! ### H_RUN as one transaction -/

/-- At most `k` steps of the core, until it stops. -/
def coreRun : Nat → State → State
  | 0, s => s
  | k + 1, s =>
    match s.ctl with
    | .idle => s
    | .run _ =>
      match step s with
      | .next t => coreRun k t
      | .fault _ => s
      | .refused _ => s

/-- A number of steps that is enough for one H_RUN (46_host_interface.md R484, Obligations.RunTerminates). -/
def runBound (s : State) : Nat := 3 * availBits s + 3

/-- `H_RUN` as the host sees it, one atomic transaction (00_scope.md R5): its start and the core's steps until it returns. -/
def runAtomic (s : State) : State := coreRun (runBound s) (hRun s)

/-- `H_APPEND(c); H_RUN` for each chunk in turn. -/
def feed (chunks : List (List Byte)) (s : State) : State :=
  chunks.foldl (fun s c => runAtomic (hAppend c s)) s

end Sys2Proof.Machine
end

