-- ==== Sys2Proof/Safety.lean ====
section
/-! DEFINITION. What a safe run is: the model goes on, and what the host may rely on of the state it sees. -/

namespace Sys2Proof

open Sys2Proof.Machine

/-- The invariant of the machine, kept by every step: structure, accumulators, window and status. -/
abbrev Safety.Inv (s : State) : Prop := StructOk s ∧ AccumOk s ∧ WindowOk s ∧ StatusOk s

/-- The model goes on from `s`: no fault and no refusal. -/
def Safety.Goes (s : State) : Prop := ∃ t, step s = .next t

/-- The states that steps reach from `s`. -/
inductive Safety.Reaches (s : State) : State → Prop where
  | refl : Safety.Reaches s s
  | tail {t u : State} : Safety.Reaches s t → step t = .next u → Safety.Reaches s u

/-- A safe machine state: every state reached from it meets the invariant and goes on. -/
def Safety.Safe (s : State) : Prop := ∀ t, Safety.Reaches s t → Safety.Inv t ∧ Safety.Goes t

end Sys2Proof
end

