-- ==== Sys2Proof/Certificates/Slice0/Obligations.lean ====
section
/-! DEFINITION. The statements for the provers, and the words they are made of. -/

namespace Sys2Proof.Machine

/-! ### Vocabulary -/

/-- `u` is `s` but for the read cursor and the bit accumulator: what reads of the stream change. -/
abbrev cursorMoved (s u : State) : Prop :=
  u = { s with ibOff := u.ibOff, brBuf := u.brBuf, brLen := u.brLen }

/-- `u` is `s` with every received byte taken: what a read that finds too little input leaves (40_input_bitreader.md R144). -/
abbrev inputExhausted (s u : State) : Prop := cursorMoved s u ∧ u.ibOff = s.ibData.length

/-- The length symbols, by index `k = sym - 257` (30_encoding.md R104). -/
def lenInstrs : List Instr :=
  [.len257, .len258, .len259, .len260, .len261, .len262, .len263, .len264, .len265, .len266, .len267, .len268, .len269,
    .len270, .len271, .len272, .len273, .len274, .len275, .len276, .len277, .len278, .len279, .len280, .len281, .len282,
    .len283, .len284, .len285]

/-- The distance symbols, by number (30_encoding.md R106). -/
def distInstrs : List Instr :=
  [.dist0, .dist1, .dist2, .dist3, .dist4, .dist5, .dist6, .dist7, .dist8, .dist9, .dist10, .dist11, .dist12, .dist13,
    .dist14, .dist15, .dist16, .dist17, .dist18, .dist19, .dist20, .dist21, .dist22, .dist23, .dist24, .dist25, .dist26,
    .dist27, .dist28, .dist29]

/-- The Huffman table in force at a place of a block (42_deflate_blocks.md R205, R206, R209). -/
def tableAt (p : Slot) (s : State) : Option Table :=
  match p with
  | .cl => some s.loc.clT
  | .ll => some (litTable s)
  | .d => some (distTable s)
  | .gzId | .gzCm | .gzFlg | .gzFtext | .gzFlgRsv | .gzFixed | .gzFextra | .gzFname | .gzFcomment | .gzFhcrc => none
  | .bh | .stBody | .dhCounts | .dhCll | .trailer => none

/-- The slot of a table that the pending bits select (41_huffman_table.md R176). -/
def slotIndex (t : Table) (s : State) : Nat := pending s % 2 ^ t.m

/-- The code-length-code lengths of R208 as `v` gives them: the k-th 3-bit field of `v` goes to slot `PERM[k]`, for `k < n`;
the other slots are 0. -/
def cllVector (n v : Nat) : List Nat :=
  (List.range 19).map fun sym => if perm.idxOf sym < n then v / 8 ^ perm.idxOf sym % 8 else 0

/-- The fields of 46_host_interface.md R485, in its order. -/
def hostView (s : State) :
    RunResult × BitVec 8 × BitVec 8 × List Byte × Word × Word × Word × Word × Bool × Bool × Nat :=
  (s.result, s.errCode, s.errDetail, s.out, s.crcAcc, s.totalOut, s.trlCrc, s.trlIsize, s.warnCrc, s.warnSize, s.ibOff)

/-- What no instruction changes, whatever its outcome: the input received and its end latch, the configuration, and the
transactions the host has still to issue (10_state.md R20, R22, R36). -/
abbrev hostFieldsKept (s t : State) : Prop :=
  t.ibData = s.ibData ∧ t.ibEnd = s.ibEnd ∧ t.cfgVerify = s.cfgVerify ∧ t.host = s.host

/-- `t` is no suspension: the run goes on, or it ended with DONE or ERROR. -/
abbrev notSuspended (t : State) : Prop := t.ctl = .idle → t.result ≠ .needMore

/-- The committed results: what only a commit changes (20_memory.md R76). -/
abbrev committedKept (s t : State) : Prop :=
  t.out = s.out ∧ t.crcAcc = s.crcAcc ∧ t.totalOut = s.totalOut ∧ t.final = s.final

/-- The trailer's registers and the warnings. -/
abbrev trailerKept (s t : State) : Prop :=
  t.trlCrc = s.trlCrc ∧ t.trlIsize = s.trlIsize ∧ t.warnCrc = s.warnCrc ∧ t.warnSize = s.warnSize

/-- The unit snapshot (10_state.md R37). -/
abbrev snapshotKept (s t : State) : Prop :=
  t.snapOff = s.snapOff ∧ t.snapBuf = s.snapBuf ∧ t.snapLen = s.snapLen ∧ t.snapWlen = s.snapWlen

/-- When the trailer's registers and the warnings may differ from their reset values (60_exceptions.md R510;
45_crc32_validator.md R444). -/
abbrev TrailerOk (s : State) : Prop :=
  (s.trlCrc ≠ 0 ∨ s.trlIsize ≠ 0 → s.phase = .done ∨ (s.phase = .error ∧ (s.errCode = 6 ∨ s.errCode = 7))) ∧
    (s.warnCrc = true ∨ s.warnSize = true → s.phase = .done)

end Sys2Proof.Machine

open Sys2Proof Sys2Proof.Machine

/-! ### Decoding -/

/-- Words written out from the spec's encodings decode, at their place of the stream, to the instruction they stand for
(30_encoding.md R91, R92, R94, R98 to R100, R103; spec/opcode_table.json). The last three clauses are about bare table words,
which rows of several formats share: the 8-bit word 0x10 is DIST16's match word too, and 0x8B1F fits ILL_LEN's mask. Which row
reads a bare word is the model's choice, not the spec's (log entry 10). -/
def Obligations.SpecWordsDecode : Prop :=
  decode .gzId 0x8B1F = .ok .gzId ∧
  decode .gzFcomment 0x10 = .ok .gzFcomment ∧
  decode .gzFcomment 0x0F = .error .flagClear ∧
  decode .ll 285 = .ok .len285 ∧
  decode .d 16 = .ok .dist16 ∧
  decode .bh 0b011 = .ok (.blkFixed true) ∧
  decode .bh 0b100 = .ok (.blkDynamic false) ∧
  decode .cl 17 = .ok .clZero3 ∧
  decode .ll 72 = .ok (.lit 0x48) ∧
  decode .ll 256 = .ok .eob ∧
  decode .ll 286 = .ok (.illLen 286) ∧
  decode .d 29 = .ok .dist29 ∧
  decode .d 31 = .ok (.illDist 31) ∧
  streamWord (.lit 0x48) = (0b00011110, 8) ∧
  streamWord .eob = (0, 7) ∧
  streamWord .dist29 = (0b10111, 5) ∧
  decodeTableWord 16 0x8B1F = some .gzId ∧
  decodeTableWord 8 0x10 = some .gzFcomment ∧
  decodeTableWord 16 285 = some .len285

/-- Every well-formed instruction's word decodes to it at its place, and nothing but a well-formed instruction of the place is
ever decoded; at the block header and the three alphabets a decoded word is the encoding of what it decodes to, and the words
that decode are the alphabets'; an optional header field decodes exactly when its bit of FLG is 1, and the other places decode
whatever the word (30_encoding.md R92 to R100). -/
def Obligations.DecodeEncodeAgree : Prop :=
  (∀ i : Instr, i.wf = true → decode (slotOf i) (encode i) = .ok i) ∧
  (∀ p w i, decode p w = .ok i → i.wf = true ∧ slotOf i = p) ∧
  (∀ p w i, decode p w = .ok i → (p = .cl ∨ p = .ll ∨ p = .d ∨ (p = .bh ∧ w < 8)) → encode i = w) ∧
  (∀ w, (∃ i, decode .cl w = .ok i) ↔ w ≤ 18) ∧
  (∀ w, (∃ i, decode .ll w = .ok i) ↔ w ≤ 287) ∧
  (∀ w, (∃ i, decode .d w = .ok i) ↔ w ≤ 31) ∧
  (∀ flg : Byte,
    ((∃ i, decode .gzFtext flg.toNat = .ok i) ↔ flg &&& 0x01 ≠ 0) ∧
    ((∃ i, decode .gzFhcrc flg.toNat = .ok i) ↔ flg &&& 0x02 ≠ 0) ∧
    ((∃ i, decode .gzFextra flg.toNat = .ok i) ↔ flg &&& 0x04 ≠ 0) ∧
    ((∃ i, decode .gzFname flg.toNat = .ok i) ↔ flg &&& 0x08 ≠ 0) ∧
    ((∃ i, decode .gzFcomment flg.toNat = .ok i) ↔ flg &&& 0x10 ≠ 0)) ∧
  (∀ p w, p ∈ [.gzId, .gzCm, .gzFlg, .gzFlgRsv, .gzFixed, .bh, .stBody, .dhCounts, .dhCll, .trailer] →
    ∃ i, decode p w = .ok i)

/-- The stream's own encoding: where the pending bits begin with a block header, or with the fixed Huffman code of a
literal/length or distance symbol, the fetch reads that instruction and consumes those bits and no others (30_encoding.md
R94, R103). -/
def Obligations.FixedCodesAreFetched : Prop :=
  ∀ (i : Instr) (s : State), i.wf = true → BitsOk s.brBuf s.brLen →
    pending s % 2 ^ (streamWord i).2 = (streamWord i).1 →
    (slotOf i = .bh → 3 ≤ availBits s → fetch .bh s = .ready (.ok i) (drawn 2 (drawn 1 s))) ∧
    (slotOf i = .ll → s.loc.btype = 1 → 9 ≤ availBits s →
      fetch .ll s = .ready (.ok i) (brDrop (streamWord i).2 (peeked 9 s))) ∧
    (slotOf i = .d → s.loc.btype = 1 → 5 ≤ availBits s →
      fetch .d s = .ready (.ok i) (brDrop (streamWord i).2 (peeked 5 s)))

/-! ### Huffman tables -/

/-- `Build`'s checks (41_huffman_table.md R174): the empty code first, then a code whose lengths cannot form a prefix code;
every other vector is accepted. The loop's `left` after round `b` is `2^b` less the codes that the lengths up to `b` use. -/
def Obligations.BuildRejectsOversubscribedCodes : Prop :=
  ∀ lens : List Nat,
    (build lens = .error .emptyCode ↔ ∀ x ∈ lens, x = 0) ∧
    (build lens = .error .oversubscribed ↔ (∃ x ∈ lens, x ≠ 0) ∧
      ∃ b ≤ maxLen lens, 2 ^ b < ∑ k ∈ Finset.Icc 1 b, lens.count k * 2 ^ (b - k)) ∧
    ((∃ t, build lens = .ok t) ↔ (∃ x ∈ lens, x ≠ 0) ∧
      ∀ b ≤ maxLen lens, ∑ k ∈ Finset.Icc 1 b, lens.count k * 2 ^ (b - k) ≤ 2 ^ b)

/-- The table that `Build` makes is the one R175's loops write, and with a prefix code no two symbols write the same slot. -/
def Obligations.TableFillIsTheSpecLoop : Prop :=
  ∀ (lens : List Nat) (t : Table), (∀ x ∈ lens, x ≤ Config.pMaxBits) → build lens = .ok t →
    (t.m ∈ lens ∧ ∀ x ∈ lens, x ≤ t.m) ∧
    (t.min ∈ lens ∧ 0 < t.min ∧ ∀ x ∈ lens, 0 < x → t.min ≤ x) ∧
    t.symbol.zip t.codeLen = fillSpecLoop lens ∧ t.symbol.length = 2 ^ t.m ∧ t.codeLen.length = 2 ^ t.m ∧
    ∀ w ∈ codeWords lens, ∀ w' ∈ codeWords lens, ∀ j < 2 ^ t.m,
      j % 2 ^ w.len = w.rev → j % 2 ^ w'.len = w'.rev → w = w'

/-- What the canonical code of a symbol encodes is decoded: where the pending bits begin with the code that R172 gives symbol
`i`, most significant bit first, `Decode` with the table of R175 answers `i` and consumes the code (41_huffman_table.md R172,
R175, R176; 00_scope.md R11). -/
def Obligations.CanonicalCodesAreDecoded : Prop :=
  ∀ (lens : List Nat) (t : Table) (i : Nat) (s : State), (∀ x ∈ lens, x ≤ Config.pMaxBits) → build lens = .ok t →
    0 < lens.getD i 0 → BitsOk s.brBuf s.brLen → t.m ≤ availBits s →
    pending s % 2 ^ lens.getD i 0 = reverseBits ((canonicalCodes lens).getD i 0) (lens.getD i 0) →
    decodeSymbol t s = .ready i (brDrop (lens.getD i 0) (peeked t.m s))

/-- A code of one symbol (41_huffman_table.md R179): its 1-bit code is 0, and the other slot is empty. -/
def Obligations.SingleCodeTable : Prop :=
  ∀ (lens : List Nat) (i : Nat), lens.getD i 0 = 1 → (∀ j, j ≠ i → lens.getD j 0 = 0) →
    build lens = .ok { m := 1, min := 1, symbol := [i, 0], codeLen := [1, 0] }

/-! ### The step -/

/-- A step runs the instruction that the stream holds at the core's place: a header field or a unit body by its place and
FLG, a block header by its three bits, a symbol by its code; the bits that select it are consumed before it runs. While the
core is stopped the step is the host's next transaction, and a host without one changes nothing (46_host_interface.md R474,
R480; 42_deflate_blocks.md R202; 41_huffman_table.md R176). That one step is one field or symbol is the model's choice (log
entry 1). -/
def Obligations.StepRunsTheDecodedInstruction : Prop :=
  (∀ p s i, s.ctl = .run p → p ≠ .bh → tableAt p s = none → decode p s.loc.flg.toNat = .ok i → step s = exec i s) ∧
  (∀ s i, s.ctl = .run .bh → BitsOk s.brBuf s.brLen → 3 ≤ availBits s → decode .bh (pending s % 8) = .ok i →
    step s = exec i (drawn 2 (drawn 1 s))) ∧
  (∀ p s t i, s.ctl = .run p → tableAt p s = some t → BitsOk s.brBuf s.brLen → t.m ≤ 16 → t.m ≤ availBits s →
    t.codeLen.getD (slotIndex t s) 0 ≠ 0 → decode p (t.symbol.getD (slotIndex t s) 0) = .ok i →
    step s = exec i (brDrop (t.codeLen.getD (slotIndex t s) 0) (peeked t.m s))) ∧
  (∀ s, s.ctl = .idle → s.host = [] → step s = .next s)

/-- Where no instruction is read: too few bits for a block header or for the longest code of the table in force stop the
unit before anything is looked up, and an empty slot is UNASSIGNED_CODE with the peeked bits still pending
(41_huffman_table.md R176; 42_deflate_blocks.md R202; 60_exceptions.md R505, R512). -/
def Obligations.StepStopsWhereNoSymbolIsRead : Prop :=
  (∀ s, s.ctl = .run .bh → Memory.wf s → availBits s < 3 →
    ∃ u, inputExhausted s u ∧ step s = .next (stopShort u)) ∧
  (∀ p s t, s.ctl = .run p → tableAt p s = some t → Memory.wf s → t.m ≤ 16 → availBits s < t.m →
    ∃ u, inputExhausted s u ∧ pending u = pending s ∧ step s = .next (stopShort u)) ∧
  (∀ p s t, s.ctl = .run p → tableAt p s = some t → Memory.wf s → t.m ≤ 16 → t.m ≤ availBits s →
    t.codeLen.getD (slotIndex t s) 0 = 0 →
    ∃ u, cursorMoved s u ∧ pending u = pending s ∧ availBits u = availBits s ∧
      step s = .next (errorEntry (.invalidDeflateBlock .unassignedCode) u))

/-! ### Reset and invariants -/

/-- What H_RESET leaves, element by element, and that power-on is the same state (70_reset_and_hazards.md R550, R551); the
fixed tables are the built ones; without H_RESET no transaction leaves DONE or ERROR. The spec gives block-local state no
reset value, and this statement gives it none; `ctl` and `host` are the model's own fields (log entries 1 and 3). -/
def Obligations.ResetValues : Prop :=
  (∀ s, s.ctl = .idle → ∀ ts, s.host = .reset :: ts → ∃ t, step s = .next t ∧
    t.ibData = [] ∧ t.ibOff = 0 ∧ t.ibEnd = false ∧ t.brBuf = 0 ∧ t.brLen = 0 ∧ t.phase = .header ∧ t.final = false ∧
    t.win = [] ∧ t.out = [] ∧ t.crcAcc = 0 ∧ t.crcAcc = crc32 [] ∧ t.totalOut = 0 ∧ t.trlCrc = 0 ∧ t.trlIsize = 0 ∧
    t.result = .idle ∧ t.errCode = 0 ∧ t.errDetail = 0 ∧ t.warnCrc = false ∧ t.warnSize = false ∧
    t.cfgVerify = .off ∧ t.snapOff = 0 ∧ t.snapBuf = 0 ∧ t.snapLen = 0 ∧ t.snapWlen = 0 ∧
    t.ctl = .idle ∧ t.host = ts) ∧
  hReset State.reset = State.reset ∧
  build fixedLitLengths = .ok fixedLitT ∧ build fixedDistLengths = .ok fixedDistT ∧
  (∀ s t, s.ctl = .idle → (s.phase = .done ∨ s.phase = .error) → (∀ ts, s.host ≠ .reset :: ts) → step s = .next t →
    t.phase = s.phase ∧ t.ctl = .idle)

/-- The invariant holds right after reset (the premise of 70_reset_and_hazards.md R552), whatever the host has in mind. -/
def Obligations.InvariantAtReset : Prop :=
  ∀ ts : List HostReq, Safety.Inv { State.reset with host := ts } ∧ TrailerOk { State.reset with host := ts }

/-- Every step keeps the structural invariant: IB_OFF inside the input, BR_LEN at most 23 with clean bits above, well-formed
table memories, unit-local values in range, the core in a place of the unit that PHASE selects, POS a natural number at the
cursor and at the snapshot, and SNAP_OFF at most IB_OFF while a unit runs (10_state.md R21, R23, R24, R25;
40_input_bitreader.md R137, R145; 41_huffman_table.md R170). -/
def Obligations.StructureIsKept : Prop := ∀ s t, StructOk s → step s = .next t → StructOk t

/-- Every step keeps CRC_ACC the CRC-32 of OUT and TOTAL_OUT its length modulo 2^32 (45_crc32_validator.md R441, R442). -/
def Obligations.AccumulatorsAreKept : Prop := ∀ s t, AccumOk s → step s = .next t → AccumOk t

/-- Every step keeps OUT what WIN holds of the committed units (20_memory.md R63, R68, R76; 60_exceptions.md R510). -/
def Obligations.WindowIsKept : Prop := ∀ s t, WindowOk s → step s = .next t → WindowOk t

/-- Every step keeps what PHASE, FINAL, RESULT and the error registers say of one another (10_state.md R26, R27, R34;
46_host_interface.md R483). -/
def Obligations.StatusIsKept : Prop := ∀ s t, StructOk s → StatusOk s → step s = .next t → StatusOk t

/-- TRL_CRC and TRL_ISIZE are non-zero only after a BadCrc or BadSize error or a trailer commit, and a warning is set only
after a trailer commit: every step keeps this. And they are written by the trailer alone, when it commits or raises BadCrc or
BadSize, the warnings only when it commits in WARN mode; every other step but H_RESET leaves them (60_exceptions.md R510;
44_gzip_framer.md R420; 45_crc32_validator.md R444; 10_state.md R32, R35). -/
def Obligations.TrailerRegistersAreKept : Prop :=
  (∀ s t, StructOk s → StatusOk s → TrailerOk s → step s = .next t → TrailerOk t) ∧
  (∀ s t, (∀ ts, s.ctl = .idle → s.host ≠ .reset :: ts) → step s = .next t → ¬ trailerKept s t →
    s.ctl = .run .trailer ∧ (t.phase = .done ∨ (t.phase = .error ∧ (t.errCode = 6 ∨ t.errCode = 7))) ∧
    (t.warnCrc ≠ s.warnCrc ∨ t.warnSize ≠ s.warnSize → s.cfgVerify = .warn ∧ t.phase = .done))

/-- From a state with the structural invariant no step faults or is refused. -/
def Obligations.StepNeverStops : Prop := ∀ s, StructOk s → ∃ t, step s = .next t

/-- From every state that meets the invariant, every run is safe: each state reached meets the invariant and goes on. -/
def Obligations.InvariantStatesAreSafe : Prop := ∀ s, Safety.Inv s → Safety.Safe s

/-- Every H_RUN ends, within a number of steps that the length of the input bounds (46_host_interface.md R484). -/
def Obligations.RunTerminates : Prop :=
  (∀ s, StructOk s → (coreRun (runBound s) s).ctl = .idle) ∧
  (∀ s, StructOk s → s.ctl = .idle → (runAtomic s).ctl = .idle) ∧
  (∀ s, StructOk s → runBound s ≤ 24 * s.ibData.length + 72)

/-! ### The host's transactions -/

/-- H_APPEND, H_CLOSE and H_CONFIG (46_host_interface.md R471, R472, R473). -/
def Obligations.InputTransactions : Prop :=
  ∀ s ts, s.ctl = .idle →
    (∀ chunk, s.host = .append chunk :: ts →
      step s = .next { s with
        ibData := if s.ibEnd then s.ibData else s.ibData ++ chunk, host := ts, reply := .nothing }) ∧
    (s.host = .close :: ts → step s = .next { s with ibEnd := true, host := ts, reply := .nothing }) ∧
    (s.host = .config 0 :: ts → step s = .next { s with cfgVerify := .off, host := ts, reply := .nothing }) ∧
    (s.host = .config 1 :: ts → step s = .next { s with cfgVerify := .warn, host := ts, reply := .nothing }) ∧
    (s.host = .config 2 :: ts → step s = .next { s with cfgVerify := .fatal, host := ts, reply := .nothing }) ∧
    (s.host = .config 3 :: ts → step s = .next { s with host := ts, reply := .nothing })

/-- H_READ and H_OUT (46_host_interface.md R478) and the packing of the registers (10_state.md R42): every listed field at
its bits, every unlisted bit 0, no state of the block changed; and the numbers that encode RESULT, PHASE and CFG_VERIFY
(R36, R42). -/
def Obligations.HostReads : Prop :=
  (∀ s ts r, s.ctl = .idle → s.host = .read r :: ts →
    step s = .next { s with host := ts, reply := .register (hostRegister r s) }) ∧
  (∀ s ts i, s.ctl = .idle → s.host = .out i :: ts →
    step s = .next { s with host := ts, reply := .byte (if h : i < s.out.length then some s.out[i] else none) }) ∧
  (∀ s, (hostRegister 0 s).extractLsb' 0 2 = BitVec.ofNat 2 s.result.code ∧
    (hostRegister 0 s).extractLsb' 4 3 = BitVec.ofNat 3 s.phase.code ∧
    (hostRegister 0 s).getLsbD 8 = s.final ∧ (hostRegister 0 s).getLsbD 9 = s.ibEnd ∧
    (hostRegister 0 s).getLsbD 16 = s.warnCrc ∧ (hostRegister 0 s).getLsbD 17 = s.warnSize ∧
    (∀ b, b ∉ [0, 1, 4, 5, 6, 8, 9, 16, 17] → (hostRegister 0 s).getLsbD b = false) ∧
    (hostRegister 1 s).extractLsb' 0 8 = s.errCode ∧ (hostRegister 1 s).extractLsb' 8 8 = s.errDetail ∧
    (hostRegister 1 s).extractLsb' 16 16 = 0 ∧
    (hostRegister 2 s).toNat = s.cfgVerify.code ∧ hostRegister 3 s = s.crcAcc ∧ hostRegister 4 s = s.totalOut ∧
    hostRegister 5 s = s.trlCrc ∧ hostRegister 6 s = s.trlIsize ∧ (hostRegister 7 s).toNat = s.ibOff % 2 ^ 32 ∧
    ∀ r, 7 < r → hostRegister r s = 0) ∧
  (∀ r, hostRegister r State.reset = 0) ∧
  (RunResult.idle.code = 0 ∧ RunResult.needMore.code = 1 ∧ RunResult.done.code = 2 ∧ RunResult.error.code = 3) ∧
  (Phase.header.code = 0 ∧ Phase.block.code = 1 ∧ Phase.trailer.code = 2 ∧ Phase.done.code = 3 ∧ Phase.error.code = 4) ∧
  (VerifyMode.off.code = 0 ∧ VerifyMode.warn.code = 1 ∧ VerifyMode.fatal.code = 2)

/-- H_RUN starts a unit with a snapshot of the cursors and the window's length (46_host_interface.md R475), in HEADER, BLOCK
and TRAILER; in DONE it returns DONE at once (R474). -/
def Obligations.RunTakesASnapshot : Prop :=
  ∀ s ts, s.ctl = .idle → s.host = .run :: ts →
    (s.phase = .header ∨ s.phase = .block ∨ s.phase = .trailer →
      step s = .next { s with
        snapOff := s.ibOff, snapBuf := s.brBuf, snapLen := s.brLen, snapWlen := s.win.length, host := ts,
        ctl := if s.phase = .header then .run .gzId else if s.phase = .block then .run .bh else .run .trailer }) ∧
    (s.phase = .done → step s = .next { s with result := .done, host := ts, reply := .result .done })

/-- ERROR is sticky (60_exceptions.md R511): H_RUN returns ERROR and changes nothing, H_APPEND, H_CLOSE and H_CONFIG keep
their effects (`InputTransactions` says which), no unit runs again, and only H_RESET leaves it. `RESULT` is ERROR there by the status invariant. -/
def Obligations.ErrorIsSticky : Prop :=
  ∀ s ts, StatusOk s → s.ctl = .idle → s.phase = .error →
    (s.host = .run :: ts → step s = .next { s with host := ts, reply := .result .error }) ∧
    (∀ chunk, s.host = .append chunk :: ts →
      step s = .next (hAppend chunk { s with host := ts })) ∧
    (s.host = .close :: ts → step s = .next (hClose { s with host := ts })) ∧
    (∀ v, s.host = .config v :: ts → step s = .next (hConfig v { s with host := ts })) ∧
    (∀ q t, s.host = q :: ts → q ≠ .reset → step s = .next t → t.phase = .error ∧ t.ctl = .idle) ∧
    (s.host = .reset :: ts → ∃ t, step s = .next t ∧ t.phase = .header ∧ t.errCode = 0)

/-! ### Errors, suspension, whole runs -/

/-- `ErrorEntry` (60_exceptions.md R510) and the codes and details of R501 and R502: ERR_CODE, ERR_DETAIL, PHASE and RESULT
are written and H_RUN returns ERROR; nothing is restored and nothing else changes. -/
def Obligations.ErrorEntryEffect : Prop :=
  (∀ e s, settle (.fatal e s) = { s with
    errCode := e.code, errDetail := e.detail, phase := .error, result := .error, ctl := .idle, reply := .result .error }) ∧
  (∀ s, settle (.needMoreClosed s) = settle (.fatal .truncated s)) ∧
  (FatalError.truncated.code, FatalError.truncated.detail) = (1, 0) ∧
  (FatalError.invalidGzipSignature.code, FatalError.invalidGzipSignature.detail) = (2, 0) ∧
  (∀ cm, ((FatalError.unsupportedCompressionMethod cm).code, (FatalError.unsupportedCompressionMethod cm).detail) = (3, cm)) ∧
  (∀ d, (FatalError.invalidDeflateBlock d).code = 4 ∧ (FatalError.invalidDeflateBlock d).detail = d.code) ∧
  DeflateDetail.reservedBtype.code = 1 ∧ DeflateDetail.lenNlen.code = 2 ∧ DeflateDetail.repeatAtZero.code = 3 ∧
  DeflateDetail.emptyCode.code = 4 ∧ DeflateDetail.clOverrun.code = 5 ∧ DeflateDetail.oversubscribed.code = 6 ∧
  DeflateDetail.unassignedCode.code = 7 ∧ DeflateDetail.distTooFar.code = 8 ∧
  (FatalError.lenSym.code, FatalError.lenSym.detail) = (5, 1) ∧ (FatalError.distSym.code, FatalError.distSym.detail) = (5, 2) ∧
  (FatalError.badCrc.code, FatalError.badCrc.detail) = (6, 0) ∧ (FatalError.badSize.code, FatalError.badSize.detail) = (7, 0)

/-- A unit that suspends leaves the state as it was when it started, with RESULT = NEED_MORE (46_host_interface.md R477;
20_memory.md R68). The premise is the window invariant's. Unit-local state is discarded; its value
then is the model's choice (log entry 2). -/
def Obligations.SuspensionRestoresTheUnit : Prop :=
  ∀ s t p, s.snapWlen ≤ s.win.length → s.ctl = .run p → step s = .next t → t.ctl = .idle → t.result = .needMore →
    t = { s with
      ibOff := s.snapOff, brBuf := s.snapBuf, brLen := s.snapLen, win := s.win.take s.snapWlen,
      loc := Locals.initial, result := .needMore, ctl := .idle, reply := .result .needMore }

/-- Closed and open streams (46_host_interface.md R483; 60_exceptions.md R512, R513): with the stream closed a run that stops
never answers NEED_MORE; with it open no step raises Truncated. -/
def Obligations.ClosedStreamsTruncateOpenOnesSuspend : Prop :=
  (∀ s t p, s.ctl = .run p → s.ibEnd = true → step s = .next t → t.ctl = .idle →
    t.result = .done ∨ t.result = .error) ∧
  (∀ s t p, s.ctl = .run p → s.ibEnd = false → step s = .next t → t.errCode = 1 → s.errCode = 1)

/-- A suspended unit that runs again with no new input suspends in the same state (20_memory.md R78). -/
def Obligations.SuspensionIsIdempotent : Prop :=
  ∀ s, StructOk s → WindowOk s → s.ctl = .idle → (runAtomic s).result = .needMore →
    runAtomic (runAtomic s) = runAtomic s

/-- A step that does not run short depends on no byte it has not read: with more input after it, and whatever the end latch
says, it does the same (46_host_interface.md R485, "Reason"). -/
def Obligations.StepIgnoresLaterInput : Prop :=
  ∀ s t p (more : List Byte) (latch : Bool), StructOk s → s.ctl = .run p → step s = .next t →
    (t.ctl ≠ .idle ∨ t.phase = .done ∨ (t.phase = .error ∧ t.errCode ≠ 1)) →
    step { s with ibData := s.ibData ++ more, ibEnd := latch } =
      .next { t with ibData := t.ibData ++ more, ibEnd := latch }

/-- Chunking independence (46_host_interface.md R485), for every byte sequence, valid or not, every split of it and every
verification mode: the last run shows the host what one run on the whole sequence shows, and after every intermediate run OUT
is a beginning of the final OUT. -/
def Obligations.ChunkingIndependence : Prop :=
  ∀ (v : BitVec 2) (chunks : List (List Byte)),
    hostView (runAtomic (hClose (feed chunks (hConfig v State.reset)))) =
      hostView (runAtomic (hClose (hAppend chunks.flatten (hConfig v State.reset)))) ∧
    ∀ k, (feed (chunks.take k) (hConfig v State.reset)).out <+:
      (runAtomic (hClose (hAppend chunks.flatten (hConfig v State.reset)))).out

/-! ### The header unit -/

/-- The two signature bytes (44_gzip_framer.md R400): both are read before either is compared. -/
def Obligations.SignatureField : Prop :=
  (∀ s id1 id2 rest, unread s = id1 :: id2 :: rest →
    exec .gzId s = .next (if id1 ≠ 0x1F ∨ id2 ≠ 0x8B then errorEntry .invalidGzipSignature (taken 2 s)
      else goto .gzCm (taken 2 s))) ∧
  (∀ s, avail s < 2 → exec .gzId s = .next (stopShort (taken (avail s) s)))

/-- CM (44_gzip_framer.md R401) and FLG (R402). That GZ_FTEXT, when its bit is 1, and GZ_FLG_RSV come right after FLG is the
model's choice (log entry 8): the spec gives them no place and no effect (R408, R409). -/
def Obligations.MethodAndFlagFields : Prop :=
  (∀ s cm rest, unread s = cm :: rest →
    exec .gzCm s = .next (if cm ≠ 8 then errorEntry (.unsupportedCompressionMethod cm) (taken 1 s)
      else goto .gzFlg (taken 1 s))) ∧
  (∀ s flg rest, unread s = flg :: rest →
    exec .gzFlg s = .next { taken 1 s with
      loc := { s.loc with flg := flg }, ctl := .run (if flg.getLsbD 0 then .gzFtext else .gzFlgRsv) }) ∧
  (∀ s, avail s = 0 → exec .gzCm s = .next (stopShort s) ∧ exec .gzFlg s = .next (stopShort s))

/-- FTEXT and the reserved bits of FLG have no effect on decoding and read nothing (44_gzip_framer.md R408, R409).
The places after them are the model's choice (log entry 8). -/
def Obligations.IgnoredFlagBits : Prop :=
  ∀ s, exec .gzFtext s = .next { s with ctl := .run .gzFlgRsv } ∧ exec .gzFlgRsv s = .next { s with ctl := .run .gzFixed }

/-- MTIME, XFL and OS, and FHCRC: six and two bytes taken, whatever they are (44_gzip_framer.md R403, R407). -/
def Obligations.DiscardedHeaderBytes : Prop :=
  ∀ s, (6 ≤ avail s → exec .gzFixed s = .next (afterFixed (taken 6 s))) ∧
    (avail s < 6 → exec .gzFixed s = .next (stopShort (taken (avail s) s))) ∧
    (2 ≤ avail s → exec .gzFhcrc s = .next (commitHeader (taken 2 s))) ∧
    (avail s < 2 → exec .gzFhcrc s = .next (stopShort (taken (avail s) s)))

/-- FEXTRA (44_gzip_framer.md R404): XLEN is little-endian, and XLEN bytes follow it. -/
def Obligations.ExtraField : Prop :=
  (∀ s lo hi rest, unread s = lo :: hi :: rest →
    (lo.toNat + 256 * hi.toNat ≤ rest.length →
      exec .gzFextra s = .next (afterExtra (taken (2 + (lo.toNat + 256 * hi.toNat)) s))) ∧
    (rest.length < lo.toNat + 256 * hi.toNat → exec .gzFextra s = .next (stopShort (taken (avail s) s)))) ∧
  (∀ s, avail s < 2 → exec .gzFextra s = .next (stopShort (taken (avail s) s)))

/-- FNAME and FCOMMENT (44_gzip_framer.md R405, R406): the bytes up to the first NUL and the NUL itself; a field without a NUL
runs short with every byte taken. -/
def Obligations.NulTerminatedFields : Prop :=
  (∀ s text rest, unread s = text ++ 0 :: rest → 0 ∉ text →
    exec .gzFname s = .next (afterName (taken (text.length + 1) s)) ∧
    exec .gzFcomment s = .next (afterComment (taken (text.length + 1) s))) ∧
  (∀ s, 0 ∉ unread s →
    exec .gzFname s = .next (stopShort (taken (avail s) s)) ∧
    exec .gzFcomment s = .next (stopShort (taken (avail s) s)))

/-- The optional fields come in the order FEXTRA, FNAME, FCOMMENT, FHCRC, each only when its bit of FLG is 1
(30_encoding.md R93); after the last selected one the header commits: PHASE becomes BLOCK, the block unit starts with its
snapshot, and nothing else changes (44_gzip_framer.md R410). The unit-local state's value there is the model's (log entry 2). -/
def Obligations.HeaderFieldOrder : Prop :=
  (∀ s, afterFixed s = if s.loc.flg &&& 0x04 ≠ 0 then goto .gzFextra s else afterExtra s) ∧
  (∀ s, afterExtra s = if s.loc.flg &&& 0x08 ≠ 0 then goto .gzFname s else afterName s) ∧
  (∀ s, afterName s = if s.loc.flg &&& 0x10 ≠ 0 then goto .gzFcomment s else afterComment s) ∧
  (∀ s, afterComment s = if s.loc.flg &&& 0x02 ≠ 0 then goto .gzFhcrc s else commitHeader s) ∧
  (∀ s, commitHeader s = { s with
    phase := .block, ctl := .run .bh, loc := Locals.initial,
    snapOff := s.ibOff, snapBuf := s.brBuf, snapLen := s.brLen, snapWlen := s.win.length })

/-! ### Blocks -/

/-- The four block types after their three bits (42_deflate_blocks.md R200, R205, R207): the stored body, the fixed tables'
body, the dynamic header, and RESERVED_BTYPE with nothing else read. -/
def Obligations.BlockTypes : Prop :=
  ∀ (f : Bool) (s : State),
    exec (.blkStored f) s = .next { s with loc := { s.loc with bfinal := f, btype := 0 }, ctl := .run .stBody } ∧
    exec (.blkFixed f) s = .next { s with loc := { s.loc with bfinal := f, btype := 1 }, ctl := .run .ll } ∧
    exec (.blkDynamic f) s = .next { s with loc := { s.loc with bfinal := f, btype := 2 }, ctl := .run .dhCounts } ∧
    exec (.blkReserved f) s = .next (errorEntry (.invalidDeflateBlock .reservedBtype)
      { s with loc := { s.loc with bfinal := f, btype := 3 } })

/-- The stored body (42_deflate_blocks.md R204): the padding is dropped, LEN and NLEN are 16-bit little-endian fields, LEN_NLEN
comes before any data byte, and LEN bytes are copied from the stream to the window before the block commits. -/
def Obligations.StoredBody : Prop :=
  ∀ s, BitsOk s.brBuf s.brLen → 32 ≤ availBits (brAlign s) →
    let a := brAlign s
    let u := drawn 16 (drawn 16 a)
    let len := pending a % 2 ^ 16
    let nlen := pending a / 2 ^ 16 % 2 ^ 16
    (BitVec.ofNat 16 len ≠ ~~~ BitVec.ofNat 16 nlen →
      exec .stBody s = .next (errorEntry (.invalidDeflateBlock .lenNlen) u)) ∧
    (BitVec.ofNat 16 len = ~~~ BitVec.ofNat 16 nlen → 8 * len ≤ availBits u →
      exec .stBody s = .next (commitBlock
        { drawnFields 8 len u with win := s.win ++ natBytes len (pending a / 2 ^ 32) }))

/-- A stored body that is not all there runs short: every byte received is taken, and only the window has grown
(42_deflate_blocks.md R204; 40_input_bitreader.md R144). -/
def Obligations.StoredBodyRunsShort : Prop :=
  ∀ s, Memory.wf s →
    (availBits (brAlign s) < 32 ∨
      (BitVec.ofNat 16 (pending (brAlign s)) = ~~~ BitVec.ofNat 16 (pending (brAlign s) / 2 ^ 16) ∧
        availBits (brAlign s) < 32 + 8 * (pending (brAlign s) % 2 ^ 16))) →
    ∃ u extra, u = { s with
        ibOff := s.ibData.length, brBuf := u.brBuf, brLen := u.brLen, win := s.win ++ extra } ∧
      exec .stBody s = .next (stopShort u)

/-- HLIT, HDIST and HCLEN (42_deflate_blocks.md R206; 30_encoding.md R97): 5, 5 and 4 bits, each LSB-first; with fewer than
14 bits the unit runs short with every received byte taken and no count written (40_input_bitreader.md R144;
60_exceptions.md R512). -/
def Obligations.DynamicHeaderCounts : Prop :=
  (∀ s, BitsOk s.brBuf s.brLen → 14 ≤ availBits s →
    exec .dhCounts s = .next (goto .dhCll { drawn 4 (drawn 5 (drawn 5 s)) with
      loc := { s.loc with
        hlit := pending s % 2 ^ 5 + 257, hdist := pending s / 2 ^ 5 % 2 ^ 5 + 1, hclen := pending s / 2 ^ 10 % 2 ^ 4 + 4 } })) ∧
  (∀ s, Memory.wf s → availBits s < 14 → ∃ u, inputExhausted s u ∧ exec .dhCounts s = .next (stopShort u))

/-- The code-length code (42_deflate_blocks.md R208; 30_encoding.md R105): HCLEN lengths of 3 bits in PERM order, the slots not
named 0, then CL_T is built or its error raised; with fewer bits the unit runs short with every received byte taken, before
anything is built (40_input_bitreader.md R144; 60_exceptions.md R512). -/
def Obligations.CodeLengthCode : Prop :=
  perm = [16, 17, 18, 0, 8, 7, 9, 6, 10, 5, 11, 4, 12, 3, 13, 2, 14, 1, 15] ∧
  (∀ s, Memory.wf s → s.loc.hclen ≤ 19 → availBits s < 3 * s.loc.hclen →
    ∃ u, inputExhausted s u ∧ exec .dhCll s = .next (stopShort u)) ∧
  ∀ s, BitsOk s.brBuf s.brLen → s.loc.hclen ≤ 19 → 3 * s.loc.hclen ≤ availBits s →
    let u := drawnFields 3 s.loc.hclen s
    (∀ t, build (cllVector s.loc.hclen (pending s)) = .ok t →
      exec .dhCll s = .next (goto .cl { u with loc := { s.loc with clT := t, lens := [] } })) ∧
    (∀ e, build (cllVector s.loc.hclen (pending s)) = .error e →
      exec .dhCll s = .next (errorEntry (.invalidDeflateBlock e) u))

/-- A code length (42_deflate_blocks.md R210): one length is appended. What follows is `CodeLengthsEnd`'s. -/
def Obligations.CodeLengthSymbol : Prop :=
  ∀ (len : Nat) (s : State), len ≤ 15 →
    exec (.clLen len) s = .next (settle (nextCodeLength { s with loc := { s.loc with lens := s.loc.lens ++ [len] } }))

/-- Repeats (42_deflate_blocks.md R211 to R214): REPEAT_AT_ZERO before the extra bits are read, CL_OVERRUN after them and before
anything is appended, then 3 to 6 copies of the last length, 3 to 10 zeros, or 11 to 138 zeros. -/
def Obligations.RepeatSymbols : Prop :=
  (∀ s, s.loc.lens = [] → exec .clRep s = .next (errorEntry (.invalidDeflateBlock .repeatAtZero) s)) ∧
  ∀ (i : Instr) (base bits : Nat) (s : State),
    ((i = .clRep ∧ base = 3 ∧ bits = 2 ∧ s.loc.lens ≠ []) ∨ (i = .clZero3 ∧ base = 3 ∧ bits = 3) ∨
      (i = .clZero11 ∧ base = 11 ∧ bits = 7)) →
    BitsOk s.brBuf s.brLen →
    let r := base + pending s % 2 ^ bits
    let v := if i = .clRep then s.loc.lens.getLastD 0 else 0
    let u := drawn bits s
    (availBits s < bits → exec i s = .next (stopShort (drained s))) ∧
    (bits ≤ availBits s → s.loc.hlit + s.loc.hdist < s.loc.lens.length + r →
      exec i s = .next (errorEntry (.invalidDeflateBlock .clOverrun) u)) ∧
    (bits ≤ availBits s → s.loc.lens.length + r ≤ s.loc.hlit + s.loc.hdist →
      exec i s = .next (settle (nextCodeLength
        { u with loc := { s.loc with lens := s.loc.lens ++ List.replicate r v } })))

/-- The head of the code-length loop and the block's tables (42_deflate_blocks.md R209, R215): another symbol while lengths are
missing; then LIT_T from the first HLIT lengths, and only then DIST_T from the next HDIST; the first error is the one
reported, with nothing read. -/
def Obligations.CodeLengthsEnd : Prop :=
  ∀ s, (s.loc.lens.length < s.loc.hlit + s.loc.hdist → settle (nextCodeLength s) = goto .cl s) ∧
    (s.loc.hlit + s.loc.hdist ≤ s.loc.lens.length →
      (∀ e, build (s.loc.lens.take s.loc.hlit) = .error e →
        settle (nextCodeLength s) = errorEntry (.invalidDeflateBlock e) s) ∧
      (∀ lt e, build (s.loc.lens.take s.loc.hlit) = .ok lt →
        build ((s.loc.lens.drop s.loc.hlit).take s.loc.hdist) = .error e →
        settle (nextCodeLength s) = errorEntry (.invalidDeflateBlock e) s) ∧
      (∀ lt dt, build (s.loc.lens.take s.loc.hlit) = .ok lt →
        build ((s.loc.lens.drop s.loc.hlit).take s.loc.hdist) = .ok dt →
        settle (nextCodeLength s) = goto .ll { s with loc := { s.loc with litT := lt, distT := dt } }))

/-! ### Symbols -/

/-- LIT (43_deflate_symbols.md R300; 20_memory.md R65): the byte is appended to the window and to nothing else, for every byte
value; it reaches OUT when the block commits (42_deflate_blocks.md R201). The premise of that clause is the window
invariant's. -/
def Obligations.LiteralIsWritten : Prop :=
  ∀ (b : Byte) (s : State),
    exec (.lit b) s = .next { s with win := s.win ++ [b], ctl := .run .ll } ∧
    (s.snapWlen ≤ s.win.length →
      exec .eob { s with win := s.win ++ [b], ctl := .run .ll } =
        .next (commitBlock { s with win := s.win ++ [b], ctl := .run .ll }) ∧
      (commitBlock { s with win := s.win ++ [b], ctl := .run .ll }).out = s.out ++ s.win.drop s.snapWlen ++ [b]) ∧
    streamWord (.lit b) =
      if b.toNat ≤ 143 then (reverseBits (0b00110000 + b.toNat) 8, 8) else (reverseBits (0b110010000 + (b.toNat - 144)) 9, 9)

/-- EOB ends the block, and the block commits (42_deflate_blocks.md R201; 43_deflate_symbols.md R301): the bytes it decoded are
appended to OUT and enter CRC_ACC and TOTAL_OUT, a final block sets FINAL, PHASE goes to TRAILER or to the next BLOCK, and the
next unit starts with its snapshot; the input, the bit accumulator, the window and the other registers are as they were. The
spec gives unit-local state no value there, and this statement gives it none. -/
def Obligations.BlockCommit : Prop :=
  ∀ s, exec .eob s = .next (commitBlock s) ∧
    commitBlock s = { s with
      out := s.out ++ s.win.drop s.snapWlen
      crcAcc := crcUpdate s.crcAcc (s.win.drop s.snapWlen)
      totalOut := BitVec.ofNat 32 ((s.totalOut.toNat + (s.win.length - s.snapWlen)) % 2 ^ 32)
      final := if s.loc.bfinal then true else s.final
      phase := if s.loc.bfinal then .trailer else .block
      ctl := if s.loc.bfinal then .run .trailer else .run .bh
      snapOff := s.ibOff, snapBuf := s.brBuf, snapLen := s.brLen, snapWlen := s.win.length
      loc := (commitBlock s).loc }

/-- The length symbols (43_deflate_symbols.md R302), all 29 of them: the extra bits are read, the length is
`min(LBASE[k] + e, 258)`, where the cap never changes a value, and the distance symbol comes next; a read that finds too few extra bits runs short. -/
def Obligations.LengthSymbols : Prop :=
  ∀ (k : Nat) (i : Instr) (s : State), lenInstrs[k]? = some i → BitsOk s.brBuf s.brLen →
    (lextra.getD k 0 ≤ availBits s →
      exec i s = .next (goto .d { drawn (lextra.getD k 0) s with
        loc := { s.loc with len := min (lbase.getD k 0 + pending s % 2 ^ lextra.getD k 0) 258 } })) ∧
    lbase.getD k 0 + pending s % 2 ^ lextra.getD k 0 ≤ 258 ∧
    (availBits s < lextra.getD k 0 → exec i s = .next (stopShort (drained s)))

/-- The distance symbols, all 30 of them, and the copy (43_deflate_symbols.md R303, R304): the distance is `DBASE[d] + e`; one
that reaches before the window's start writes nothing; else `len` bytes are appended, each equal to the byte `dist` before it
in the window as it then is. -/
def Obligations.BackReferenceCopies : Prop :=
  ∀ (d : Nat) (i : Instr) (s : State), distInstrs[d]? = some i → BitsOk s.brBuf s.brLen →
    let dist := dbase.getD d 0 + pending s % 2 ^ dextra.getD d 0
    let u := drawn (dextra.getD d 0) s
    (availBits s < dextra.getD d 0 → exec i s = .next (stopShort (drained s))) ∧
    (dextra.getD d 0 ≤ availBits s → s.win.length < dist →
      exec i s = .next (errorEntry (.invalidDeflateBlock .distTooFar) u)) ∧
    (dextra.getD d 0 ≤ availBits s → dist ≤ s.win.length →
      ∃ new : List Byte, new.length = s.loc.len ∧ exec i s = .next (goto .ll { u with win := s.win ++ new }) ∧
        ∀ j < s.loc.len, (s.win ++ new)[s.win.length + j]? = (s.win ++ new)[s.win.length + j - dist]?)

/-- The constant tables (30_encoding.md R104, R105, R106) as the spec lists them, and the ranges they give: every length is 3
to 258, every distance 1 to 32768, and each value of the two ranges is reached. -/
def Obligations.LengthAndDistanceRanges : Prop :=
  lbase = [3, 4, 5, 6, 7, 8, 9, 10, 11, 13, 15, 17, 19, 23, 27, 31, 35, 43, 51, 59, 67, 83, 99, 115, 131, 163, 195, 227,
    258] ∧
  lextra = [0, 0, 0, 0, 0, 0, 0, 0, 1, 1, 1, 1, 2, 2, 2, 2, 3, 3, 3, 3, 4, 4, 4, 4, 5, 5, 5, 5, 0] ∧
  dbase = [1, 2, 3, 4, 5, 7, 9, 13, 17, 25, 33, 49, 65, 97, 129, 193, 257, 385, 513, 769, 1025, 1537, 2049, 3073, 4097,
    6145, 8193, 12289, 16385, 24577] ∧
  dextra = [0, 0, 0, 0, 1, 1, 2, 2, 3, 3, 4, 4, 5, 5, 6, 6, 7, 7, 8, 8, 9, 9, 10, 10, 11, 11, 12, 12, 13, 13] ∧
  perm = [16, 17, 18, 0, 8, 7, 9, 6, 10, 5, 11, 4, 12, 3, 13, 2, 14, 1, 15] ∧
  (∀ k < 29, ∀ e < 2 ^ lextra.getD k 0, 3 ≤ lbase.getD k 0 + e ∧ lbase.getD k 0 + e ≤ Config.pLenMax) ∧
  (∀ d < 30, ∀ e < 2 ^ dextra.getD d 0, 1 ≤ dbase.getD d 0 + e ∧ dbase.getD d 0 + e ≤ Config.pWindow) ∧
  (∀ n, 3 ≤ n → n ≤ Config.pLenMax → ∃ k < 29, ∃ e < 2 ^ lextra.getD k 0, n = lbase.getD k 0 + e) ∧
  (∀ n, 1 ≤ n → n ≤ Config.pWindow → ∃! p : Nat × Nat, p.1 < 30 ∧ p.2 < 2 ^ dextra.getD p.1 0 ∧ n = dbase.getD p.1 0 + p.2)

/-- The illegal symbols 286, 287, 30 and 31 (43_deflate_symbols.md R340, R373): fatal, with nothing read and nothing written
besides the error's registers. -/
def Obligations.IllegalSymbols : Prop :=
  ∀ (sym : Nat) (s : State),
    exec (.illLen sym) s = .next { s with
      errCode := 5, errDetail := 1, phase := .error, result := .error, ctl := .idle, reply := .result .error } ∧
    exec (.illDist sym) s = .next { s with
      errCode := 5, errDetail := 2, phase := .error, result := .error, ctl := .idle, reply := .result .error }

/-! ### Trailer and validator -/

/-- The trailer (44_gzip_framer.md R420; 45_crc32_validator.md R443): eight bytes from the next byte boundary, CRC32 then ISIZE,
little-endian; then the comparison that CFG_VERIFY selects: none, sticky warnings, or BadCrc before BadSize; a trailer that is
not all there runs short with TRL_CRC and TRL_ISIZE untouched. The spec gives unit-local state no value after it (`l`). -/
def Obligations.TrailerUnit : Prop :=
  ∀ s, Memory.wf s →
    let a := brAlign s
    let c := BitVec.ofNat 32 (pending a % 2 ^ 32)
    let z := BitVec.ofNat 32 (pending a / 2 ^ 32 % 2 ^ 32)
    let u := { drawnFields 8 8 a with trlCrc := c, trlIsize := z }
    ∃ l : Locals,
    let done := fun t : State => { t with
      phase := .done, result := .done, ctl := .idle, reply := .result .done, loc := l }
    (64 ≤ availBits a →
      (s.cfgVerify = .off → exec .gzTrailer s = .next (done u)) ∧
      (s.cfgVerify = .warn → exec .gzTrailer s = .next (done { u with
        warnCrc := if c ≠ s.crcAcc then true else s.warnCrc
        warnSize := if z ≠ s.totalOut then true else s.warnSize })) ∧
      (s.cfgVerify = .fatal →
        (c ≠ s.crcAcc → exec .gzTrailer s = .next (errorEntry .badCrc u)) ∧
        (c = s.crcAcc → z ≠ s.totalOut → exec .gzTrailer s = .next (errorEntry .badSize u)) ∧
        (c = s.crcAcc → z = s.totalOut → exec .gzTrailer s = .next (done u)))) ∧
    (availBits a < 64 → ∃ v, inputExhausted s v ∧ exec .gzTrailer s = .next (stopShort v))

/-- CRC-32 (45_crc32_validator.md R440): it composes over concatenation, and takes the spec's check values. -/
def Obligations.CrcComposes : Prop :=
  (∀ (c : Word) (x y : List Byte), crcUpdate (crcUpdate c x) y = crcUpdate c (x ++ y)) ∧
  crc32 [] = 0 ∧ crc32 [0x61] = 0xE8B7BE43 ∧ crc32 [0x61, 0x62, 0x63] = 0x352441C2 ∧
  crc32 [0x31, 0x32, 0x33, 0x34, 0x35, 0x36, 0x37, 0x38, 0x39] = 0xCBF43926 ∧
  crc32 [0x48, 0x65, 0x6C, 0x6C, 0x6F, 0x2C, 0x20, 0x57, 0x6F, 0x72, 0x6C, 0x64, 0x21] = 0xEC4AC3D0

/-! ### Frames and whole-machine rules -/

/-- What a header field leaves alone, whatever its outcome (44_gzip_framer.md R410): the window, the output, the accumulators,
the flags, the trailer's registers and the input received. The bit accumulator too, but for the restore of a suspension. -/
def Obligations.HeaderFieldFrame : Prop :=
  ∀ (i : Instr) (s t : State), slotPhase (slotOf i) = .header → s.snapWlen = s.win.length → exec i s = .next t →
    t.win = s.win ∧ committedKept s t ∧ trailerKept s t ∧ hostFieldsKept s t ∧
    (t.phase ≠ .block → snapshotKept s t) ∧
    (notSuspended t → t.brBuf = s.brBuf ∧ t.brLen = s.brLen)

/-- What a block header, a dynamic header, a code-length symbol, a literal, a length, a distance or an illegal symbol leaves
alone, whatever its outcome: the output, the accumulators, FINAL, the trailer's registers, the snapshot, and every byte of the
input (20_memory.md R76; 10_state.md R20, R37). A byte of the window changes only by being appended or by the restore of a
suspension; none but LIT and the distance symbols appends one. -/
def Obligations.SymbolFrame : Prop :=
  ∀ (i : Instr) (s t : State), slotPhase (slotOf i) = .block → i ≠ .eob → i ≠ .stBody → exec i s = .next t →
    committedKept s t ∧ trailerKept s t ∧ hostFieldsKept s t ∧ snapshotKept s t ∧
    (notSuspended t → s.win <+: t.win ∧ ((∀ b, i ≠ .lit b) → i ∉ distInstrs → t.win = s.win)) ∧
    (t.phase = s.phase ∨ t.phase = .error)

/-- What the end of a block and a stored body leave alone: the trailer's registers, the configuration, the error registers
while no error is entered, and every byte of the input. When such an instruction commits, OUT grows by the bytes the block
decoded, the window by the stored bytes alone, and every byte that either held stays where it was (42_deflate_blocks.md R201,
R204). -/
def Obligations.BlockEndFrame : Prop :=
  ∀ (i : Instr) (s t : State), (i = .eob ∨ i = .stBody) → exec i s = .next t →
    trailerKept s t ∧ hostFieldsKept s t ∧
    (t.phase ≠ .error → t.errCode = s.errCode ∧ t.errDetail = s.errDetail) ∧
    (t.ctl = .idle → committedKept s t ∧ snapshotKept s t) ∧
    (t.ctl ≠ .idle → s.win <+: t.win ∧ (i = .eob → t.win = s.win) ∧ t.out = s.out ++ t.win.drop s.snapWlen ∧
      t.snapWlen = t.win.length)

/-- What the trailer leaves alone: the output, the accumulators, FINAL, the configuration, the snapshot and every byte of the
input and, but for the restore of a suspension, of the window; TRL_CRC, TRL_ISIZE and the warnings unless it ends the run
(44_gzip_framer.md R420). -/
def Obligations.TrailerFrame : Prop :=
  ∀ s t, exec .gzTrailer s = .next t →
    committedKept s t ∧ hostFieldsKept s t ∧ snapshotKept s t ∧ t.ctl = .idle ∧
    (notSuspended t → t.win = s.win) ∧
    (t.result = .needMore ∨ t.errCode = 1 ∧ t.phase = .error → trailerKept s t) ∧
    (t.phase ≠ .error → t.errCode = s.errCode ∧ t.errDetail = s.errDetail)

/-- Only the host writes the input, its end latch and the configuration, and only at the input's end (10_state.md R20, R22,
R36; 20_memory.md R61, R83): no step of the core touches them, and no transaction but H_RESET changes a byte received. -/
def Obligations.InputIsAppendOnly : Prop :=
  (∀ s t p, s.ctl = .run p → step s = .next t → hostFieldsKept s t) ∧
  (∀ s t, s.ctl = .idle → (∀ ts, s.host ≠ .reset :: ts) → step s = .next t →
    s.ibData <+: t.ibData ∧ (s.ibEnd = true → t.ibEnd = true ∧ t.ibData = s.ibData) ∧ s.host.tail = t.host)

/-- OUT is append-only, and only the commit of a block writes it (10_state.md R29; 20_memory.md R62, R82). -/
def Obligations.OutputIsAppendOnly : Prop :=
  ∀ s t, (∀ ts, s.ctl = .idle → s.host ≠ .reset :: ts) → step s = .next t →
    s.out <+: t.out ∧
    (¬ committedKept s t → (s.ctl = .run .ll ∨ s.ctl = .run .stBody) ∧ t.out = s.out ++ t.win.drop s.snapWlen ∧
      (t.ctl = .run .bh ∨ t.ctl = .run .trailer))

/-- The phase transitions (10_state.md R26): a header commit, a block commit by BFINAL, a trailer commit, an error, and H_RESET
are the only steps that change PHASE. -/
def Obligations.PhaseTransitions : Prop :=
  ∀ s t, StructOk s → step s = .next t → t.phase ≠ s.phase →
    (s.phase = .header ∧ t.phase = .block ∧ t.ctl = .run .bh) ∨
    (s.phase = .block ∧ t.phase = .trailer ∧ t.ctl = .run .trailer ∧ t.final = true) ∨
    (s.phase = .trailer ∧ t.phase = .done ∧ t.ctl = .idle ∧ t.result = .done) ∨
    (s.phase ≠ .done ∧ s.phase ≠ .error ∧ t.phase = .error ∧ t.ctl = .idle ∧ t.result = .error ∧ t.errCode ≠ 0) ∨
    (s.ctl = .idle ∧ (∃ ts, s.host = .reset :: ts) ∧ t.phase = .header)

/-- POS never goes back while a unit goes on (10_state.md R25): a step of the core that does not suspend leaves the stream cursor
at or after where it was, and a symbol moves it by at least one bit. A suspension puts POS where the unit's snapshot has it and
never moves IB_OFF forward (40_input_bitreader.md R137). That BR_LEN is at most 8·IB_OFF, so that POS is a natural number, is
part of the structural invariant. -/
def Obligations.CursorMovesForward : Prop :=
  (∀ s t p, StructOk s → s.ctl = .run p → step s = .next t → notSuspended t →
    pos s ≤ pos t ∧ t.brLen ≤ 8 * t.ibOff ∧ (tableAt p s ≠ none → t.phase ≠ .error → pos s < pos t)) ∧
  (∀ s t p, StructOk s → s.ctl = .run p → step s = .next t → ¬ notSuspended t →
    pos t = 8 * s.snapOff - s.snapLen ∧ t.ibOff ≤ s.ibOff)
end

