-- ==== Sys2Proof/Laws/State.lean ====
section
/-! SUPPORT. One lemma per field per named update of State, true by rfl. -/

namespace Sys2Proof.Machine

@[simp] theorem goto_ibData (p : Slot) (s : State) : (goto p s).ibData = s.ibData := rfl
@[simp] theorem goto_ibOff (p : Slot) (s : State) : (goto p s).ibOff = s.ibOff := rfl
@[simp] theorem goto_ibEnd (p : Slot) (s : State) : (goto p s).ibEnd = s.ibEnd := rfl
@[simp] theorem goto_brBuf (p : Slot) (s : State) : (goto p s).brBuf = s.brBuf := rfl
@[simp] theorem goto_brLen (p : Slot) (s : State) : (goto p s).brLen = s.brLen := rfl
@[simp] theorem goto_phase (p : Slot) (s : State) : (goto p s).phase = s.phase := rfl
@[simp] theorem goto_final (p : Slot) (s : State) : (goto p s).final = s.final := rfl
@[simp] theorem goto_win (p : Slot) (s : State) : (goto p s).win = s.win := rfl
@[simp] theorem goto_out (p : Slot) (s : State) : (goto p s).out = s.out := rfl
@[simp] theorem goto_crcAcc (p : Slot) (s : State) : (goto p s).crcAcc = s.crcAcc := rfl
@[simp] theorem goto_totalOut (p : Slot) (s : State) : (goto p s).totalOut = s.totalOut := rfl
@[simp] theorem goto_trlCrc (p : Slot) (s : State) : (goto p s).trlCrc = s.trlCrc := rfl
@[simp] theorem goto_trlIsize (p : Slot) (s : State) : (goto p s).trlIsize = s.trlIsize := rfl
@[simp] theorem goto_result (p : Slot) (s : State) : (goto p s).result = s.result := rfl
@[simp] theorem goto_errCode (p : Slot) (s : State) : (goto p s).errCode = s.errCode := rfl
@[simp] theorem goto_errDetail (p : Slot) (s : State) : (goto p s).errDetail = s.errDetail := rfl
@[simp] theorem goto_warnCrc (p : Slot) (s : State) : (goto p s).warnCrc = s.warnCrc := rfl
@[simp] theorem goto_warnSize (p : Slot) (s : State) : (goto p s).warnSize = s.warnSize := rfl
@[simp] theorem goto_cfgVerify (p : Slot) (s : State) : (goto p s).cfgVerify = s.cfgVerify := rfl
@[simp] theorem goto_snapOff (p : Slot) (s : State) : (goto p s).snapOff = s.snapOff := rfl
@[simp] theorem goto_snapBuf (p : Slot) (s : State) : (goto p s).snapBuf = s.snapBuf := rfl
@[simp] theorem goto_snapLen (p : Slot) (s : State) : (goto p s).snapLen = s.snapLen := rfl
@[simp] theorem goto_snapWlen (p : Slot) (s : State) : (goto p s).snapWlen = s.snapWlen := rfl
@[simp] theorem goto_loc (p : Slot) (s : State) : (goto p s).loc = s.loc := rfl
@[simp] theorem goto_ctl (p : Slot) (s : State) : (goto p s).ctl = .run p := rfl
@[simp] theorem goto_host (p : Slot) (s : State) : (goto p s).host = s.host := rfl
@[simp] theorem goto_reply (p : Slot) (s : State) : (goto p s).reply = s.reply := rfl

@[simp] theorem winWrite_ibData (b : Byte) (s : State) : (winWrite b s).ibData = s.ibData := rfl
@[simp] theorem winWrite_ibOff (b : Byte) (s : State) : (winWrite b s).ibOff = s.ibOff := rfl
@[simp] theorem winWrite_ibEnd (b : Byte) (s : State) : (winWrite b s).ibEnd = s.ibEnd := rfl
@[simp] theorem winWrite_brBuf (b : Byte) (s : State) : (winWrite b s).brBuf = s.brBuf := rfl
@[simp] theorem winWrite_brLen (b : Byte) (s : State) : (winWrite b s).brLen = s.brLen := rfl
@[simp] theorem winWrite_phase (b : Byte) (s : State) : (winWrite b s).phase = s.phase := rfl
@[simp] theorem winWrite_final (b : Byte) (s : State) : (winWrite b s).final = s.final := rfl
@[simp] theorem winWrite_win (b : Byte) (s : State) : (winWrite b s).win = s.win ++ [b] := rfl
@[simp] theorem winWrite_out (b : Byte) (s : State) : (winWrite b s).out = s.out := rfl
@[simp] theorem winWrite_crcAcc (b : Byte) (s : State) : (winWrite b s).crcAcc = s.crcAcc := rfl
@[simp] theorem winWrite_totalOut (b : Byte) (s : State) : (winWrite b s).totalOut = s.totalOut := rfl
@[simp] theorem winWrite_trlCrc (b : Byte) (s : State) : (winWrite b s).trlCrc = s.trlCrc := rfl
@[simp] theorem winWrite_trlIsize (b : Byte) (s : State) : (winWrite b s).trlIsize = s.trlIsize := rfl
@[simp] theorem winWrite_result (b : Byte) (s : State) : (winWrite b s).result = s.result := rfl
@[simp] theorem winWrite_errCode (b : Byte) (s : State) : (winWrite b s).errCode = s.errCode := rfl
@[simp] theorem winWrite_errDetail (b : Byte) (s : State) : (winWrite b s).errDetail = s.errDetail := rfl
@[simp] theorem winWrite_warnCrc (b : Byte) (s : State) : (winWrite b s).warnCrc = s.warnCrc := rfl
@[simp] theorem winWrite_warnSize (b : Byte) (s : State) : (winWrite b s).warnSize = s.warnSize := rfl
@[simp] theorem winWrite_cfgVerify (b : Byte) (s : State) : (winWrite b s).cfgVerify = s.cfgVerify := rfl
@[simp] theorem winWrite_snapOff (b : Byte) (s : State) : (winWrite b s).snapOff = s.snapOff := rfl
@[simp] theorem winWrite_snapBuf (b : Byte) (s : State) : (winWrite b s).snapBuf = s.snapBuf := rfl
@[simp] theorem winWrite_snapLen (b : Byte) (s : State) : (winWrite b s).snapLen = s.snapLen := rfl
@[simp] theorem winWrite_snapWlen (b : Byte) (s : State) : (winWrite b s).snapWlen = s.snapWlen := rfl
@[simp] theorem winWrite_loc (b : Byte) (s : State) : (winWrite b s).loc = s.loc := rfl
@[simp] theorem winWrite_ctl (b : Byte) (s : State) : (winWrite b s).ctl = s.ctl := rfl
@[simp] theorem winWrite_host (b : Byte) (s : State) : (winWrite b s).host = s.host := rfl
@[simp] theorem winWrite_reply (b : Byte) (s : State) : (winWrite b s).reply = s.reply := rfl

@[simp] theorem brPush_ibData (b : Byte) (s : State) : (brPush b s).ibData = s.ibData := rfl
@[simp] theorem brPush_ibOff (b : Byte) (s : State) : (brPush b s).ibOff = s.ibOff := rfl
@[simp] theorem brPush_ibEnd (b : Byte) (s : State) : (brPush b s).ibEnd = s.ibEnd := rfl
@[simp] theorem brPush_brBuf (b : Byte) (s : State) : (brPush b s).brBuf = s.brBuf ||| (b.setWidth 64 <<< s.brLen) := rfl
@[simp] theorem brPush_brLen (b : Byte) (s : State) : (brPush b s).brLen = s.brLen + 8 := rfl
@[simp] theorem brPush_phase (b : Byte) (s : State) : (brPush b s).phase = s.phase := rfl
@[simp] theorem brPush_final (b : Byte) (s : State) : (brPush b s).final = s.final := rfl
@[simp] theorem brPush_win (b : Byte) (s : State) : (brPush b s).win = s.win := rfl
@[simp] theorem brPush_out (b : Byte) (s : State) : (brPush b s).out = s.out := rfl
@[simp] theorem brPush_crcAcc (b : Byte) (s : State) : (brPush b s).crcAcc = s.crcAcc := rfl
@[simp] theorem brPush_totalOut (b : Byte) (s : State) : (brPush b s).totalOut = s.totalOut := rfl
@[simp] theorem brPush_trlCrc (b : Byte) (s : State) : (brPush b s).trlCrc = s.trlCrc := rfl
@[simp] theorem brPush_trlIsize (b : Byte) (s : State) : (brPush b s).trlIsize = s.trlIsize := rfl
@[simp] theorem brPush_result (b : Byte) (s : State) : (brPush b s).result = s.result := rfl
@[simp] theorem brPush_errCode (b : Byte) (s : State) : (brPush b s).errCode = s.errCode := rfl
@[simp] theorem brPush_errDetail (b : Byte) (s : State) : (brPush b s).errDetail = s.errDetail := rfl
@[simp] theorem brPush_warnCrc (b : Byte) (s : State) : (brPush b s).warnCrc = s.warnCrc := rfl
@[simp] theorem brPush_warnSize (b : Byte) (s : State) : (brPush b s).warnSize = s.warnSize := rfl
@[simp] theorem brPush_cfgVerify (b : Byte) (s : State) : (brPush b s).cfgVerify = s.cfgVerify := rfl
@[simp] theorem brPush_snapOff (b : Byte) (s : State) : (brPush b s).snapOff = s.snapOff := rfl
@[simp] theorem brPush_snapBuf (b : Byte) (s : State) : (brPush b s).snapBuf = s.snapBuf := rfl
@[simp] theorem brPush_snapLen (b : Byte) (s : State) : (brPush b s).snapLen = s.snapLen := rfl
@[simp] theorem brPush_snapWlen (b : Byte) (s : State) : (brPush b s).snapWlen = s.snapWlen := rfl
@[simp] theorem brPush_loc (b : Byte) (s : State) : (brPush b s).loc = s.loc := rfl
@[simp] theorem brPush_ctl (b : Byte) (s : State) : (brPush b s).ctl = s.ctl := rfl
@[simp] theorem brPush_host (b : Byte) (s : State) : (brPush b s).host = s.host := rfl
@[simp] theorem brPush_reply (b : Byte) (s : State) : (brPush b s).reply = s.reply := rfl

@[simp] theorem brDrop_ibData (n : Nat) (s : State) : (brDrop n s).ibData = s.ibData := rfl
@[simp] theorem brDrop_ibOff (n : Nat) (s : State) : (brDrop n s).ibOff = s.ibOff := rfl
@[simp] theorem brDrop_ibEnd (n : Nat) (s : State) : (brDrop n s).ibEnd = s.ibEnd := rfl
@[simp] theorem brDrop_brBuf (n : Nat) (s : State) : (brDrop n s).brBuf = s.brBuf >>> n := rfl
@[simp] theorem brDrop_brLen (n : Nat) (s : State) : (brDrop n s).brLen = s.brLen - n := rfl
@[simp] theorem brDrop_phase (n : Nat) (s : State) : (brDrop n s).phase = s.phase := rfl
@[simp] theorem brDrop_final (n : Nat) (s : State) : (brDrop n s).final = s.final := rfl
@[simp] theorem brDrop_win (n : Nat) (s : State) : (brDrop n s).win = s.win := rfl
@[simp] theorem brDrop_out (n : Nat) (s : State) : (brDrop n s).out = s.out := rfl
@[simp] theorem brDrop_crcAcc (n : Nat) (s : State) : (brDrop n s).crcAcc = s.crcAcc := rfl
@[simp] theorem brDrop_totalOut (n : Nat) (s : State) : (brDrop n s).totalOut = s.totalOut := rfl
@[simp] theorem brDrop_trlCrc (n : Nat) (s : State) : (brDrop n s).trlCrc = s.trlCrc := rfl
@[simp] theorem brDrop_trlIsize (n : Nat) (s : State) : (brDrop n s).trlIsize = s.trlIsize := rfl
@[simp] theorem brDrop_result (n : Nat) (s : State) : (brDrop n s).result = s.result := rfl
@[simp] theorem brDrop_errCode (n : Nat) (s : State) : (brDrop n s).errCode = s.errCode := rfl
@[simp] theorem brDrop_errDetail (n : Nat) (s : State) : (brDrop n s).errDetail = s.errDetail := rfl
@[simp] theorem brDrop_warnCrc (n : Nat) (s : State) : (brDrop n s).warnCrc = s.warnCrc := rfl
@[simp] theorem brDrop_warnSize (n : Nat) (s : State) : (brDrop n s).warnSize = s.warnSize := rfl
@[simp] theorem brDrop_cfgVerify (n : Nat) (s : State) : (brDrop n s).cfgVerify = s.cfgVerify := rfl
@[simp] theorem brDrop_snapOff (n : Nat) (s : State) : (brDrop n s).snapOff = s.snapOff := rfl
@[simp] theorem brDrop_snapBuf (n : Nat) (s : State) : (brDrop n s).snapBuf = s.snapBuf := rfl
@[simp] theorem brDrop_snapLen (n : Nat) (s : State) : (brDrop n s).snapLen = s.snapLen := rfl
@[simp] theorem brDrop_snapWlen (n : Nat) (s : State) : (brDrop n s).snapWlen = s.snapWlen := rfl
@[simp] theorem brDrop_loc (n : Nat) (s : State) : (brDrop n s).loc = s.loc := rfl
@[simp] theorem brDrop_ctl (n : Nat) (s : State) : (brDrop n s).ctl = s.ctl := rfl
@[simp] theorem brDrop_host (n : Nat) (s : State) : (brDrop n s).host = s.host := rfl
@[simp] theorem brDrop_reply (n : Nat) (s : State) : (brDrop n s).reply = s.reply := rfl

@[simp] theorem brAlign_ibData (s : State) : (brAlign s).ibData = s.ibData := rfl
@[simp] theorem brAlign_ibOff (s : State) : (brAlign s).ibOff = s.ibOff := rfl
@[simp] theorem brAlign_ibEnd (s : State) : (brAlign s).ibEnd = s.ibEnd := rfl
@[simp] theorem brAlign_brBuf (s : State) : (brAlign s).brBuf = s.brBuf >>> (s.brLen % 8) := rfl
@[simp] theorem brAlign_brLen (s : State) : (brAlign s).brLen = s.brLen - s.brLen % 8 := rfl
@[simp] theorem brAlign_phase (s : State) : (brAlign s).phase = s.phase := rfl
@[simp] theorem brAlign_final (s : State) : (brAlign s).final = s.final := rfl
@[simp] theorem brAlign_win (s : State) : (brAlign s).win = s.win := rfl
@[simp] theorem brAlign_out (s : State) : (brAlign s).out = s.out := rfl
@[simp] theorem brAlign_crcAcc (s : State) : (brAlign s).crcAcc = s.crcAcc := rfl
@[simp] theorem brAlign_totalOut (s : State) : (brAlign s).totalOut = s.totalOut := rfl
@[simp] theorem brAlign_trlCrc (s : State) : (brAlign s).trlCrc = s.trlCrc := rfl
@[simp] theorem brAlign_trlIsize (s : State) : (brAlign s).trlIsize = s.trlIsize := rfl
@[simp] theorem brAlign_result (s : State) : (brAlign s).result = s.result := rfl
@[simp] theorem brAlign_errCode (s : State) : (brAlign s).errCode = s.errCode := rfl
@[simp] theorem brAlign_errDetail (s : State) : (brAlign s).errDetail = s.errDetail := rfl
@[simp] theorem brAlign_warnCrc (s : State) : (brAlign s).warnCrc = s.warnCrc := rfl
@[simp] theorem brAlign_warnSize (s : State) : (brAlign s).warnSize = s.warnSize := rfl
@[simp] theorem brAlign_cfgVerify (s : State) : (brAlign s).cfgVerify = s.cfgVerify := rfl
@[simp] theorem brAlign_snapOff (s : State) : (brAlign s).snapOff = s.snapOff := rfl
@[simp] theorem brAlign_snapBuf (s : State) : (brAlign s).snapBuf = s.snapBuf := rfl
@[simp] theorem brAlign_snapLen (s : State) : (brAlign s).snapLen = s.snapLen := rfl
@[simp] theorem brAlign_snapWlen (s : State) : (brAlign s).snapWlen = s.snapWlen := rfl
@[simp] theorem brAlign_loc (s : State) : (brAlign s).loc = s.loc := rfl
@[simp] theorem brAlign_ctl (s : State) : (brAlign s).ctl = s.ctl := rfl
@[simp] theorem brAlign_host (s : State) : (brAlign s).host = s.host := rfl
@[simp] theorem brAlign_reply (s : State) : (brAlign s).reply = s.reply := rfl

@[simp] theorem taken_ibData (n : Nat) (s : State) : (taken n s).ibData = s.ibData := rfl
@[simp] theorem taken_ibOff (n : Nat) (s : State) : (taken n s).ibOff = s.ibOff + n := rfl
@[simp] theorem taken_ibEnd (n : Nat) (s : State) : (taken n s).ibEnd = s.ibEnd := rfl
@[simp] theorem taken_brBuf (n : Nat) (s : State) : (taken n s).brBuf = s.brBuf := rfl
@[simp] theorem taken_brLen (n : Nat) (s : State) : (taken n s).brLen = s.brLen := rfl
@[simp] theorem taken_phase (n : Nat) (s : State) : (taken n s).phase = s.phase := rfl
@[simp] theorem taken_final (n : Nat) (s : State) : (taken n s).final = s.final := rfl
@[simp] theorem taken_win (n : Nat) (s : State) : (taken n s).win = s.win := rfl
@[simp] theorem taken_out (n : Nat) (s : State) : (taken n s).out = s.out := rfl
@[simp] theorem taken_crcAcc (n : Nat) (s : State) : (taken n s).crcAcc = s.crcAcc := rfl
@[simp] theorem taken_totalOut (n : Nat) (s : State) : (taken n s).totalOut = s.totalOut := rfl
@[simp] theorem taken_trlCrc (n : Nat) (s : State) : (taken n s).trlCrc = s.trlCrc := rfl
@[simp] theorem taken_trlIsize (n : Nat) (s : State) : (taken n s).trlIsize = s.trlIsize := rfl
@[simp] theorem taken_result (n : Nat) (s : State) : (taken n s).result = s.result := rfl
@[simp] theorem taken_errCode (n : Nat) (s : State) : (taken n s).errCode = s.errCode := rfl
@[simp] theorem taken_errDetail (n : Nat) (s : State) : (taken n s).errDetail = s.errDetail := rfl
@[simp] theorem taken_warnCrc (n : Nat) (s : State) : (taken n s).warnCrc = s.warnCrc := rfl
@[simp] theorem taken_warnSize (n : Nat) (s : State) : (taken n s).warnSize = s.warnSize := rfl
@[simp] theorem taken_cfgVerify (n : Nat) (s : State) : (taken n s).cfgVerify = s.cfgVerify := rfl
@[simp] theorem taken_snapOff (n : Nat) (s : State) : (taken n s).snapOff = s.snapOff := rfl
@[simp] theorem taken_snapBuf (n : Nat) (s : State) : (taken n s).snapBuf = s.snapBuf := rfl
@[simp] theorem taken_snapLen (n : Nat) (s : State) : (taken n s).snapLen = s.snapLen := rfl
@[simp] theorem taken_snapWlen (n : Nat) (s : State) : (taken n s).snapWlen = s.snapWlen := rfl
@[simp] theorem taken_loc (n : Nat) (s : State) : (taken n s).loc = s.loc := rfl
@[simp] theorem taken_ctl (n : Nat) (s : State) : (taken n s).ctl = s.ctl := rfl
@[simp] theorem taken_host (n : Nat) (s : State) : (taken n s).host = s.host := rfl
@[simp] theorem taken_reply (n : Nat) (s : State) : (taken n s).reply = s.reply := rfl

@[simp] theorem pulled_ibData (k : Nat) (s : State) : (pulled k s).ibData = s.ibData := rfl
@[simp] theorem pulled_ibOff (k : Nat) (s : State) : (pulled k s).ibOff = s.ibOff + k := rfl
@[simp] theorem pulled_ibEnd (k : Nat) (s : State) : (pulled k s).ibEnd = s.ibEnd := rfl
@[simp] theorem pulled_brBuf (k : Nat) (s : State) : (pulled k s).brBuf = BitVec.ofNat 64 (pending s % 2 ^ (s.brLen + 8 * k)) := rfl
@[simp] theorem pulled_brLen (k : Nat) (s : State) : (pulled k s).brLen = s.brLen + 8 * k := rfl
@[simp] theorem pulled_phase (k : Nat) (s : State) : (pulled k s).phase = s.phase := rfl
@[simp] theorem pulled_final (k : Nat) (s : State) : (pulled k s).final = s.final := rfl
@[simp] theorem pulled_win (k : Nat) (s : State) : (pulled k s).win = s.win := rfl
@[simp] theorem pulled_out (k : Nat) (s : State) : (pulled k s).out = s.out := rfl
@[simp] theorem pulled_crcAcc (k : Nat) (s : State) : (pulled k s).crcAcc = s.crcAcc := rfl
@[simp] theorem pulled_totalOut (k : Nat) (s : State) : (pulled k s).totalOut = s.totalOut := rfl
@[simp] theorem pulled_trlCrc (k : Nat) (s : State) : (pulled k s).trlCrc = s.trlCrc := rfl
@[simp] theorem pulled_trlIsize (k : Nat) (s : State) : (pulled k s).trlIsize = s.trlIsize := rfl
@[simp] theorem pulled_result (k : Nat) (s : State) : (pulled k s).result = s.result := rfl
@[simp] theorem pulled_errCode (k : Nat) (s : State) : (pulled k s).errCode = s.errCode := rfl
@[simp] theorem pulled_errDetail (k : Nat) (s : State) : (pulled k s).errDetail = s.errDetail := rfl
@[simp] theorem pulled_warnCrc (k : Nat) (s : State) : (pulled k s).warnCrc = s.warnCrc := rfl
@[simp] theorem pulled_warnSize (k : Nat) (s : State) : (pulled k s).warnSize = s.warnSize := rfl
@[simp] theorem pulled_cfgVerify (k : Nat) (s : State) : (pulled k s).cfgVerify = s.cfgVerify := rfl
@[simp] theorem pulled_snapOff (k : Nat) (s : State) : (pulled k s).snapOff = s.snapOff := rfl
@[simp] theorem pulled_snapBuf (k : Nat) (s : State) : (pulled k s).snapBuf = s.snapBuf := rfl
@[simp] theorem pulled_snapLen (k : Nat) (s : State) : (pulled k s).snapLen = s.snapLen := rfl
@[simp] theorem pulled_snapWlen (k : Nat) (s : State) : (pulled k s).snapWlen = s.snapWlen := rfl
@[simp] theorem pulled_loc (k : Nat) (s : State) : (pulled k s).loc = s.loc := rfl
@[simp] theorem pulled_ctl (k : Nat) (s : State) : (pulled k s).ctl = s.ctl := rfl
@[simp] theorem pulled_host (k : Nat) (s : State) : (pulled k s).host = s.host := rfl
@[simp] theorem pulled_reply (k : Nat) (s : State) : (pulled k s).reply = s.reply := rfl

@[simp] theorem snapshot_ibData (s : State) : (snapshot s).ibData = s.ibData := rfl
@[simp] theorem snapshot_ibOff (s : State) : (snapshot s).ibOff = s.ibOff := rfl
@[simp] theorem snapshot_ibEnd (s : State) : (snapshot s).ibEnd = s.ibEnd := rfl
@[simp] theorem snapshot_brBuf (s : State) : (snapshot s).brBuf = s.brBuf := rfl
@[simp] theorem snapshot_brLen (s : State) : (snapshot s).brLen = s.brLen := rfl
@[simp] theorem snapshot_phase (s : State) : (snapshot s).phase = s.phase := rfl
@[simp] theorem snapshot_final (s : State) : (snapshot s).final = s.final := rfl
@[simp] theorem snapshot_win (s : State) : (snapshot s).win = s.win := rfl
@[simp] theorem snapshot_out (s : State) : (snapshot s).out = s.out := rfl
@[simp] theorem snapshot_crcAcc (s : State) : (snapshot s).crcAcc = s.crcAcc := rfl
@[simp] theorem snapshot_totalOut (s : State) : (snapshot s).totalOut = s.totalOut := rfl
@[simp] theorem snapshot_trlCrc (s : State) : (snapshot s).trlCrc = s.trlCrc := rfl
@[simp] theorem snapshot_trlIsize (s : State) : (snapshot s).trlIsize = s.trlIsize := rfl
@[simp] theorem snapshot_result (s : State) : (snapshot s).result = s.result := rfl
@[simp] theorem snapshot_errCode (s : State) : (snapshot s).errCode = s.errCode := rfl
@[simp] theorem snapshot_errDetail (s : State) : (snapshot s).errDetail = s.errDetail := rfl
@[simp] theorem snapshot_warnCrc (s : State) : (snapshot s).warnCrc = s.warnCrc := rfl
@[simp] theorem snapshot_warnSize (s : State) : (snapshot s).warnSize = s.warnSize := rfl
@[simp] theorem snapshot_cfgVerify (s : State) : (snapshot s).cfgVerify = s.cfgVerify := rfl
@[simp] theorem snapshot_snapOff (s : State) : (snapshot s).snapOff = s.ibOff := rfl
@[simp] theorem snapshot_snapBuf (s : State) : (snapshot s).snapBuf = s.brBuf := rfl
@[simp] theorem snapshot_snapLen (s : State) : (snapshot s).snapLen = s.brLen := rfl
@[simp] theorem snapshot_snapWlen (s : State) : (snapshot s).snapWlen = s.win.length := rfl
@[simp] theorem snapshot_loc (s : State) : (snapshot s).loc = s.loc := rfl
@[simp] theorem snapshot_ctl (s : State) : (snapshot s).ctl = s.ctl := rfl
@[simp] theorem snapshot_host (s : State) : (snapshot s).host = s.host := rfl
@[simp] theorem snapshot_reply (s : State) : (snapshot s).reply = s.reply := rfl

@[simp] theorem startUnit_ibData (s : State) : (startUnit s).ibData = s.ibData := rfl
@[simp] theorem startUnit_ibOff (s : State) : (startUnit s).ibOff = s.ibOff := rfl
@[simp] theorem startUnit_ibEnd (s : State) : (startUnit s).ibEnd = s.ibEnd := rfl
@[simp] theorem startUnit_brBuf (s : State) : (startUnit s).brBuf = s.brBuf := rfl
@[simp] theorem startUnit_brLen (s : State) : (startUnit s).brLen = s.brLen := rfl
@[simp] theorem startUnit_phase (s : State) : (startUnit s).phase = s.phase := rfl
@[simp] theorem startUnit_final (s : State) : (startUnit s).final = s.final := rfl
@[simp] theorem startUnit_win (s : State) : (startUnit s).win = s.win := rfl
@[simp] theorem startUnit_out (s : State) : (startUnit s).out = s.out := rfl
@[simp] theorem startUnit_crcAcc (s : State) : (startUnit s).crcAcc = s.crcAcc := rfl
@[simp] theorem startUnit_totalOut (s : State) : (startUnit s).totalOut = s.totalOut := rfl
@[simp] theorem startUnit_trlCrc (s : State) : (startUnit s).trlCrc = s.trlCrc := rfl
@[simp] theorem startUnit_trlIsize (s : State) : (startUnit s).trlIsize = s.trlIsize := rfl
@[simp] theorem startUnit_result (s : State) : (startUnit s).result = s.result := rfl
@[simp] theorem startUnit_errCode (s : State) : (startUnit s).errCode = s.errCode := rfl
@[simp] theorem startUnit_errDetail (s : State) : (startUnit s).errDetail = s.errDetail := rfl
@[simp] theorem startUnit_warnCrc (s : State) : (startUnit s).warnCrc = s.warnCrc := rfl
@[simp] theorem startUnit_warnSize (s : State) : (startUnit s).warnSize = s.warnSize := rfl
@[simp] theorem startUnit_cfgVerify (s : State) : (startUnit s).cfgVerify = s.cfgVerify := rfl
@[simp] theorem startUnit_snapOff (s : State) : (startUnit s).snapOff = s.ibOff := rfl
@[simp] theorem startUnit_snapBuf (s : State) : (startUnit s).snapBuf = s.brBuf := rfl
@[simp] theorem startUnit_snapLen (s : State) : (startUnit s).snapLen = s.brLen := rfl
@[simp] theorem startUnit_snapWlen (s : State) : (startUnit s).snapWlen = s.win.length := rfl
@[simp] theorem startUnit_loc (s : State) : (startUnit s).loc = s.loc := rfl
@[simp] theorem startUnit_ctl (s : State) : (startUnit s).ctl = firstSlot s.phase := rfl
@[simp] theorem startUnit_host (s : State) : (startUnit s).host = s.host := rfl
@[simp] theorem startUnit_reply (s : State) : (startUnit s).reply = s.reply := rfl

@[simp] theorem restore_ibData (s : State) : (restore s).ibData = s.ibData := rfl
@[simp] theorem restore_ibOff (s : State) : (restore s).ibOff = s.snapOff := rfl
@[simp] theorem restore_ibEnd (s : State) : (restore s).ibEnd = s.ibEnd := rfl
@[simp] theorem restore_brBuf (s : State) : (restore s).brBuf = s.snapBuf := rfl
@[simp] theorem restore_brLen (s : State) : (restore s).brLen = s.snapLen := rfl
@[simp] theorem restore_phase (s : State) : (restore s).phase = s.phase := rfl
@[simp] theorem restore_final (s : State) : (restore s).final = s.final := rfl
@[simp] theorem restore_win (s : State) : (restore s).win = s.win.take s.snapWlen := rfl
@[simp] theorem restore_out (s : State) : (restore s).out = s.out := rfl
@[simp] theorem restore_crcAcc (s : State) : (restore s).crcAcc = s.crcAcc := rfl
@[simp] theorem restore_totalOut (s : State) : (restore s).totalOut = s.totalOut := rfl
@[simp] theorem restore_trlCrc (s : State) : (restore s).trlCrc = s.trlCrc := rfl
@[simp] theorem restore_trlIsize (s : State) : (restore s).trlIsize = s.trlIsize := rfl
@[simp] theorem restore_result (s : State) : (restore s).result = s.result := rfl
@[simp] theorem restore_errCode (s : State) : (restore s).errCode = s.errCode := rfl
@[simp] theorem restore_errDetail (s : State) : (restore s).errDetail = s.errDetail := rfl
@[simp] theorem restore_warnCrc (s : State) : (restore s).warnCrc = s.warnCrc := rfl
@[simp] theorem restore_warnSize (s : State) : (restore s).warnSize = s.warnSize := rfl
@[simp] theorem restore_cfgVerify (s : State) : (restore s).cfgVerify = s.cfgVerify := rfl
@[simp] theorem restore_snapOff (s : State) : (restore s).snapOff = s.snapOff := rfl
@[simp] theorem restore_snapBuf (s : State) : (restore s).snapBuf = s.snapBuf := rfl
@[simp] theorem restore_snapLen (s : State) : (restore s).snapLen = s.snapLen := rfl
@[simp] theorem restore_snapWlen (s : State) : (restore s).snapWlen = s.snapWlen := rfl
@[simp] theorem restore_loc (s : State) : (restore s).loc = Locals.initial := rfl
@[simp] theorem restore_ctl (s : State) : (restore s).ctl = s.ctl := rfl
@[simp] theorem restore_host (s : State) : (restore s).host = s.host := rfl
@[simp] theorem restore_reply (s : State) : (restore s).reply = s.reply := rfl

@[simp] theorem returnToHost_ibData (r : RunResult) (s : State) : (returnToHost r s).ibData = s.ibData := rfl
@[simp] theorem returnToHost_ibOff (r : RunResult) (s : State) : (returnToHost r s).ibOff = s.ibOff := rfl
@[simp] theorem returnToHost_ibEnd (r : RunResult) (s : State) : (returnToHost r s).ibEnd = s.ibEnd := rfl
@[simp] theorem returnToHost_brBuf (r : RunResult) (s : State) : (returnToHost r s).brBuf = s.brBuf := rfl
@[simp] theorem returnToHost_brLen (r : RunResult) (s : State) : (returnToHost r s).brLen = s.brLen := rfl
@[simp] theorem returnToHost_phase (r : RunResult) (s : State) : (returnToHost r s).phase = s.phase := rfl
@[simp] theorem returnToHost_final (r : RunResult) (s : State) : (returnToHost r s).final = s.final := rfl
@[simp] theorem returnToHost_win (r : RunResult) (s : State) : (returnToHost r s).win = s.win := rfl
@[simp] theorem returnToHost_out (r : RunResult) (s : State) : (returnToHost r s).out = s.out := rfl
@[simp] theorem returnToHost_crcAcc (r : RunResult) (s : State) : (returnToHost r s).crcAcc = s.crcAcc := rfl
@[simp] theorem returnToHost_totalOut (r : RunResult) (s : State) : (returnToHost r s).totalOut = s.totalOut := rfl
@[simp] theorem returnToHost_trlCrc (r : RunResult) (s : State) : (returnToHost r s).trlCrc = s.trlCrc := rfl
@[simp] theorem returnToHost_trlIsize (r : RunResult) (s : State) : (returnToHost r s).trlIsize = s.trlIsize := rfl
@[simp] theorem returnToHost_result (r : RunResult) (s : State) : (returnToHost r s).result = r := rfl
@[simp] theorem returnToHost_errCode (r : RunResult) (s : State) : (returnToHost r s).errCode = s.errCode := rfl
@[simp] theorem returnToHost_errDetail (r : RunResult) (s : State) : (returnToHost r s).errDetail = s.errDetail := rfl
@[simp] theorem returnToHost_warnCrc (r : RunResult) (s : State) : (returnToHost r s).warnCrc = s.warnCrc := rfl
@[simp] theorem returnToHost_warnSize (r : RunResult) (s : State) : (returnToHost r s).warnSize = s.warnSize := rfl
@[simp] theorem returnToHost_cfgVerify (r : RunResult) (s : State) : (returnToHost r s).cfgVerify = s.cfgVerify := rfl
@[simp] theorem returnToHost_snapOff (r : RunResult) (s : State) : (returnToHost r s).snapOff = s.snapOff := rfl
@[simp] theorem returnToHost_snapBuf (r : RunResult) (s : State) : (returnToHost r s).snapBuf = s.snapBuf := rfl
@[simp] theorem returnToHost_snapLen (r : RunResult) (s : State) : (returnToHost r s).snapLen = s.snapLen := rfl
@[simp] theorem returnToHost_snapWlen (r : RunResult) (s : State) : (returnToHost r s).snapWlen = s.snapWlen := rfl
@[simp] theorem returnToHost_loc (r : RunResult) (s : State) : (returnToHost r s).loc = s.loc := rfl
@[simp] theorem returnToHost_ctl (r : RunResult) (s : State) : (returnToHost r s).ctl = .idle := rfl
@[simp] theorem returnToHost_host (r : RunResult) (s : State) : (returnToHost r s).host = s.host := rfl
@[simp] theorem returnToHost_reply (r : RunResult) (s : State) : (returnToHost r s).reply = .result r := rfl

@[simp] theorem suspend_ibData (s : State) : (suspend s).ibData = s.ibData := rfl
@[simp] theorem suspend_ibOff (s : State) : (suspend s).ibOff = s.snapOff := rfl
@[simp] theorem suspend_ibEnd (s : State) : (suspend s).ibEnd = s.ibEnd := rfl
@[simp] theorem suspend_brBuf (s : State) : (suspend s).brBuf = s.snapBuf := rfl
@[simp] theorem suspend_brLen (s : State) : (suspend s).brLen = s.snapLen := rfl
@[simp] theorem suspend_phase (s : State) : (suspend s).phase = s.phase := rfl
@[simp] theorem suspend_final (s : State) : (suspend s).final = s.final := rfl
@[simp] theorem suspend_win (s : State) : (suspend s).win = s.win.take s.snapWlen := rfl
@[simp] theorem suspend_out (s : State) : (suspend s).out = s.out := rfl
@[simp] theorem suspend_crcAcc (s : State) : (suspend s).crcAcc = s.crcAcc := rfl
@[simp] theorem suspend_totalOut (s : State) : (suspend s).totalOut = s.totalOut := rfl
@[simp] theorem suspend_trlCrc (s : State) : (suspend s).trlCrc = s.trlCrc := rfl
@[simp] theorem suspend_trlIsize (s : State) : (suspend s).trlIsize = s.trlIsize := rfl
@[simp] theorem suspend_result (s : State) : (suspend s).result = .needMore := rfl
@[simp] theorem suspend_errCode (s : State) : (suspend s).errCode = s.errCode := rfl
@[simp] theorem suspend_errDetail (s : State) : (suspend s).errDetail = s.errDetail := rfl
@[simp] theorem suspend_warnCrc (s : State) : (suspend s).warnCrc = s.warnCrc := rfl
@[simp] theorem suspend_warnSize (s : State) : (suspend s).warnSize = s.warnSize := rfl
@[simp] theorem suspend_cfgVerify (s : State) : (suspend s).cfgVerify = s.cfgVerify := rfl
@[simp] theorem suspend_snapOff (s : State) : (suspend s).snapOff = s.snapOff := rfl
@[simp] theorem suspend_snapBuf (s : State) : (suspend s).snapBuf = s.snapBuf := rfl
@[simp] theorem suspend_snapLen (s : State) : (suspend s).snapLen = s.snapLen := rfl
@[simp] theorem suspend_snapWlen (s : State) : (suspend s).snapWlen = s.snapWlen := rfl
@[simp] theorem suspend_loc (s : State) : (suspend s).loc = Locals.initial := rfl
@[simp] theorem suspend_ctl (s : State) : (suspend s).ctl = .idle := rfl
@[simp] theorem suspend_host (s : State) : (suspend s).host = s.host := rfl
@[simp] theorem suspend_reply (s : State) : (suspend s).reply = .result .needMore := rfl

@[simp] theorem errorEntry_ibData (e : FatalError) (s : State) : (errorEntry e s).ibData = s.ibData := rfl
@[simp] theorem errorEntry_ibOff (e : FatalError) (s : State) : (errorEntry e s).ibOff = s.ibOff := rfl
@[simp] theorem errorEntry_ibEnd (e : FatalError) (s : State) : (errorEntry e s).ibEnd = s.ibEnd := rfl
@[simp] theorem errorEntry_brBuf (e : FatalError) (s : State) : (errorEntry e s).brBuf = s.brBuf := rfl
@[simp] theorem errorEntry_brLen (e : FatalError) (s : State) : (errorEntry e s).brLen = s.brLen := rfl
@[simp] theorem errorEntry_phase (e : FatalError) (s : State) : (errorEntry e s).phase = .error := rfl
@[simp] theorem errorEntry_final (e : FatalError) (s : State) : (errorEntry e s).final = s.final := rfl
@[simp] theorem errorEntry_win (e : FatalError) (s : State) : (errorEntry e s).win = s.win := rfl
@[simp] theorem errorEntry_out (e : FatalError) (s : State) : (errorEntry e s).out = s.out := rfl
@[simp] theorem errorEntry_crcAcc (e : FatalError) (s : State) : (errorEntry e s).crcAcc = s.crcAcc := rfl
@[simp] theorem errorEntry_totalOut (e : FatalError) (s : State) : (errorEntry e s).totalOut = s.totalOut := rfl
@[simp] theorem errorEntry_trlCrc (e : FatalError) (s : State) : (errorEntry e s).trlCrc = s.trlCrc := rfl
@[simp] theorem errorEntry_trlIsize (e : FatalError) (s : State) : (errorEntry e s).trlIsize = s.trlIsize := rfl
@[simp] theorem errorEntry_result (e : FatalError) (s : State) : (errorEntry e s).result = .error := rfl
@[simp] theorem errorEntry_errCode (e : FatalError) (s : State) : (errorEntry e s).errCode = e.code := rfl
@[simp] theorem errorEntry_errDetail (e : FatalError) (s : State) : (errorEntry e s).errDetail = e.detail := rfl
@[simp] theorem errorEntry_warnCrc (e : FatalError) (s : State) : (errorEntry e s).warnCrc = s.warnCrc := rfl
@[simp] theorem errorEntry_warnSize (e : FatalError) (s : State) : (errorEntry e s).warnSize = s.warnSize := rfl
@[simp] theorem errorEntry_cfgVerify (e : FatalError) (s : State) : (errorEntry e s).cfgVerify = s.cfgVerify := rfl
@[simp] theorem errorEntry_snapOff (e : FatalError) (s : State) : (errorEntry e s).snapOff = s.snapOff := rfl
@[simp] theorem errorEntry_snapBuf (e : FatalError) (s : State) : (errorEntry e s).snapBuf = s.snapBuf := rfl
@[simp] theorem errorEntry_snapLen (e : FatalError) (s : State) : (errorEntry e s).snapLen = s.snapLen := rfl
@[simp] theorem errorEntry_snapWlen (e : FatalError) (s : State) : (errorEntry e s).snapWlen = s.snapWlen := rfl
@[simp] theorem errorEntry_loc (e : FatalError) (s : State) : (errorEntry e s).loc = s.loc := rfl
@[simp] theorem errorEntry_ctl (e : FatalError) (s : State) : (errorEntry e s).ctl = .idle := rfl
@[simp] theorem errorEntry_host (e : FatalError) (s : State) : (errorEntry e s).host = s.host := rfl
@[simp] theorem errorEntry_reply (e : FatalError) (s : State) : (errorEntry e s).reply = .result .error := rfl

@[simp] theorem openBlock_ibData (f : Bool) (t : BitVec 2) (s : State) : (openBlock f t s).ibData = s.ibData := rfl
@[simp] theorem openBlock_ibOff (f : Bool) (t : BitVec 2) (s : State) : (openBlock f t s).ibOff = s.ibOff := rfl
@[simp] theorem openBlock_ibEnd (f : Bool) (t : BitVec 2) (s : State) : (openBlock f t s).ibEnd = s.ibEnd := rfl
@[simp] theorem openBlock_brBuf (f : Bool) (t : BitVec 2) (s : State) : (openBlock f t s).brBuf = s.brBuf := rfl
@[simp] theorem openBlock_brLen (f : Bool) (t : BitVec 2) (s : State) : (openBlock f t s).brLen = s.brLen := rfl
@[simp] theorem openBlock_phase (f : Bool) (t : BitVec 2) (s : State) : (openBlock f t s).phase = s.phase := rfl
@[simp] theorem openBlock_final (f : Bool) (t : BitVec 2) (s : State) : (openBlock f t s).final = s.final := rfl
@[simp] theorem openBlock_win (f : Bool) (t : BitVec 2) (s : State) : (openBlock f t s).win = s.win := rfl
@[simp] theorem openBlock_out (f : Bool) (t : BitVec 2) (s : State) : (openBlock f t s).out = s.out := rfl
@[simp] theorem openBlock_crcAcc (f : Bool) (t : BitVec 2) (s : State) : (openBlock f t s).crcAcc = s.crcAcc := rfl
@[simp] theorem openBlock_totalOut (f : Bool) (t : BitVec 2) (s : State) : (openBlock f t s).totalOut = s.totalOut := rfl
@[simp] theorem openBlock_trlCrc (f : Bool) (t : BitVec 2) (s : State) : (openBlock f t s).trlCrc = s.trlCrc := rfl
@[simp] theorem openBlock_trlIsize (f : Bool) (t : BitVec 2) (s : State) : (openBlock f t s).trlIsize = s.trlIsize := rfl
@[simp] theorem openBlock_result (f : Bool) (t : BitVec 2) (s : State) : (openBlock f t s).result = s.result := rfl
@[simp] theorem openBlock_errCode (f : Bool) (t : BitVec 2) (s : State) : (openBlock f t s).errCode = s.errCode := rfl
@[simp] theorem openBlock_errDetail (f : Bool) (t : BitVec 2) (s : State) : (openBlock f t s).errDetail = s.errDetail := rfl
@[simp] theorem openBlock_warnCrc (f : Bool) (t : BitVec 2) (s : State) : (openBlock f t s).warnCrc = s.warnCrc := rfl
@[simp] theorem openBlock_warnSize (f : Bool) (t : BitVec 2) (s : State) : (openBlock f t s).warnSize = s.warnSize := rfl
@[simp] theorem openBlock_cfgVerify (f : Bool) (t : BitVec 2) (s : State) : (openBlock f t s).cfgVerify = s.cfgVerify := rfl
@[simp] theorem openBlock_snapOff (f : Bool) (t : BitVec 2) (s : State) : (openBlock f t s).snapOff = s.snapOff := rfl
@[simp] theorem openBlock_snapBuf (f : Bool) (t : BitVec 2) (s : State) : (openBlock f t s).snapBuf = s.snapBuf := rfl
@[simp] theorem openBlock_snapLen (f : Bool) (t : BitVec 2) (s : State) : (openBlock f t s).snapLen = s.snapLen := rfl
@[simp] theorem openBlock_snapWlen (f : Bool) (t : BitVec 2) (s : State) : (openBlock f t s).snapWlen = s.snapWlen := rfl
@[simp] theorem openBlock_loc (f : Bool) (t : BitVec 2) (s : State) : (openBlock f t s).loc = { s.loc with bfinal := f, btype := t } := rfl
@[simp] theorem openBlock_ctl (f : Bool) (t : BitVec 2) (s : State) : (openBlock f t s).ctl = s.ctl := rfl
@[simp] theorem openBlock_host (f : Bool) (t : BitVec 2) (s : State) : (openBlock f t s).host = s.host := rfl
@[simp] theorem openBlock_reply (f : Bool) (t : BitVec 2) (s : State) : (openBlock f t s).reply = s.reply := rfl

@[simp] theorem appendLens_ibData (ls : List Nat) (s : State) : (appendLens ls s).ibData = s.ibData := rfl
@[simp] theorem appendLens_ibOff (ls : List Nat) (s : State) : (appendLens ls s).ibOff = s.ibOff := rfl
@[simp] theorem appendLens_ibEnd (ls : List Nat) (s : State) : (appendLens ls s).ibEnd = s.ibEnd := rfl
@[simp] theorem appendLens_brBuf (ls : List Nat) (s : State) : (appendLens ls s).brBuf = s.brBuf := rfl
@[simp] theorem appendLens_brLen (ls : List Nat) (s : State) : (appendLens ls s).brLen = s.brLen := rfl
@[simp] theorem appendLens_phase (ls : List Nat) (s : State) : (appendLens ls s).phase = s.phase := rfl
@[simp] theorem appendLens_final (ls : List Nat) (s : State) : (appendLens ls s).final = s.final := rfl
@[simp] theorem appendLens_win (ls : List Nat) (s : State) : (appendLens ls s).win = s.win := rfl
@[simp] theorem appendLens_out (ls : List Nat) (s : State) : (appendLens ls s).out = s.out := rfl
@[simp] theorem appendLens_crcAcc (ls : List Nat) (s : State) : (appendLens ls s).crcAcc = s.crcAcc := rfl
@[simp] theorem appendLens_totalOut (ls : List Nat) (s : State) : (appendLens ls s).totalOut = s.totalOut := rfl
@[simp] theorem appendLens_trlCrc (ls : List Nat) (s : State) : (appendLens ls s).trlCrc = s.trlCrc := rfl
@[simp] theorem appendLens_trlIsize (ls : List Nat) (s : State) : (appendLens ls s).trlIsize = s.trlIsize := rfl
@[simp] theorem appendLens_result (ls : List Nat) (s : State) : (appendLens ls s).result = s.result := rfl
@[simp] theorem appendLens_errCode (ls : List Nat) (s : State) : (appendLens ls s).errCode = s.errCode := rfl
@[simp] theorem appendLens_errDetail (ls : List Nat) (s : State) : (appendLens ls s).errDetail = s.errDetail := rfl
@[simp] theorem appendLens_warnCrc (ls : List Nat) (s : State) : (appendLens ls s).warnCrc = s.warnCrc := rfl
@[simp] theorem appendLens_warnSize (ls : List Nat) (s : State) : (appendLens ls s).warnSize = s.warnSize := rfl
@[simp] theorem appendLens_cfgVerify (ls : List Nat) (s : State) : (appendLens ls s).cfgVerify = s.cfgVerify := rfl
@[simp] theorem appendLens_snapOff (ls : List Nat) (s : State) : (appendLens ls s).snapOff = s.snapOff := rfl
@[simp] theorem appendLens_snapBuf (ls : List Nat) (s : State) : (appendLens ls s).snapBuf = s.snapBuf := rfl
@[simp] theorem appendLens_snapLen (ls : List Nat) (s : State) : (appendLens ls s).snapLen = s.snapLen := rfl
@[simp] theorem appendLens_snapWlen (ls : List Nat) (s : State) : (appendLens ls s).snapWlen = s.snapWlen := rfl
@[simp] theorem appendLens_loc (ls : List Nat) (s : State) : (appendLens ls s).loc = { s.loc with lens := s.loc.lens ++ ls } := rfl
@[simp] theorem appendLens_ctl (ls : List Nat) (s : State) : (appendLens ls s).ctl = s.ctl := rfl
@[simp] theorem appendLens_host (ls : List Nat) (s : State) : (appendLens ls s).host = s.host := rfl
@[simp] theorem appendLens_reply (ls : List Nat) (s : State) : (appendLens ls s).reply = s.reply := rfl

@[simp] theorem emitBlock_ibData (s : State) : (emitBlock s).ibData = s.ibData := rfl
@[simp] theorem emitBlock_ibOff (s : State) : (emitBlock s).ibOff = s.ibOff := rfl
@[simp] theorem emitBlock_ibEnd (s : State) : (emitBlock s).ibEnd = s.ibEnd := rfl
@[simp] theorem emitBlock_brBuf (s : State) : (emitBlock s).brBuf = s.brBuf := rfl
@[simp] theorem emitBlock_brLen (s : State) : (emitBlock s).brLen = s.brLen := rfl
@[simp] theorem emitBlock_phase (s : State) : (emitBlock s).phase = s.phase := rfl
@[simp] theorem emitBlock_final (s : State) : (emitBlock s).final = (s.final || s.loc.bfinal) := rfl
@[simp] theorem emitBlock_win (s : State) : (emitBlock s).win = s.win := rfl
@[simp] theorem emitBlock_out (s : State) : (emitBlock s).out = s.out ++ newBytes s := rfl
@[simp] theorem emitBlock_crcAcc (s : State) : (emitBlock s).crcAcc = crcUpdate s.crcAcc (newBytes s) := rfl
@[simp] theorem emitBlock_totalOut (s : State) : (emitBlock s).totalOut = sizeUpdate s.totalOut (newBytes s).length := rfl
@[simp] theorem emitBlock_trlCrc (s : State) : (emitBlock s).trlCrc = s.trlCrc := rfl
@[simp] theorem emitBlock_trlIsize (s : State) : (emitBlock s).trlIsize = s.trlIsize := rfl
@[simp] theorem emitBlock_result (s : State) : (emitBlock s).result = s.result := rfl
@[simp] theorem emitBlock_errCode (s : State) : (emitBlock s).errCode = s.errCode := rfl
@[simp] theorem emitBlock_errDetail (s : State) : (emitBlock s).errDetail = s.errDetail := rfl
@[simp] theorem emitBlock_warnCrc (s : State) : (emitBlock s).warnCrc = s.warnCrc := rfl
@[simp] theorem emitBlock_warnSize (s : State) : (emitBlock s).warnSize = s.warnSize := rfl
@[simp] theorem emitBlock_cfgVerify (s : State) : (emitBlock s).cfgVerify = s.cfgVerify := rfl
@[simp] theorem emitBlock_snapOff (s : State) : (emitBlock s).snapOff = s.snapOff := rfl
@[simp] theorem emitBlock_snapBuf (s : State) : (emitBlock s).snapBuf = s.snapBuf := rfl
@[simp] theorem emitBlock_snapLen (s : State) : (emitBlock s).snapLen = s.snapLen := rfl
@[simp] theorem emitBlock_snapWlen (s : State) : (emitBlock s).snapWlen = s.snapWlen := rfl
@[simp] theorem emitBlock_loc (s : State) : (emitBlock s).loc = s.loc := rfl
@[simp] theorem emitBlock_ctl (s : State) : (emitBlock s).ctl = s.ctl := rfl
@[simp] theorem emitBlock_host (s : State) : (emitBlock s).host = s.host := rfl
@[simp] theorem emitBlock_reply (s : State) : (emitBlock s).reply = s.reply := rfl

@[simp] theorem commitHeader_ibData (s : State) : (commitHeader s).ibData = s.ibData := rfl
@[simp] theorem commitHeader_ibOff (s : State) : (commitHeader s).ibOff = s.ibOff := rfl
@[simp] theorem commitHeader_ibEnd (s : State) : (commitHeader s).ibEnd = s.ibEnd := rfl
@[simp] theorem commitHeader_brBuf (s : State) : (commitHeader s).brBuf = s.brBuf := rfl
@[simp] theorem commitHeader_brLen (s : State) : (commitHeader s).brLen = s.brLen := rfl
@[simp] theorem commitHeader_phase (s : State) : (commitHeader s).phase = .block := rfl
@[simp] theorem commitHeader_final (s : State) : (commitHeader s).final = s.final := rfl
@[simp] theorem commitHeader_win (s : State) : (commitHeader s).win = s.win := rfl
@[simp] theorem commitHeader_out (s : State) : (commitHeader s).out = s.out := rfl
@[simp] theorem commitHeader_crcAcc (s : State) : (commitHeader s).crcAcc = s.crcAcc := rfl
@[simp] theorem commitHeader_totalOut (s : State) : (commitHeader s).totalOut = s.totalOut := rfl
@[simp] theorem commitHeader_trlCrc (s : State) : (commitHeader s).trlCrc = s.trlCrc := rfl
@[simp] theorem commitHeader_trlIsize (s : State) : (commitHeader s).trlIsize = s.trlIsize := rfl
@[simp] theorem commitHeader_result (s : State) : (commitHeader s).result = s.result := rfl
@[simp] theorem commitHeader_errCode (s : State) : (commitHeader s).errCode = s.errCode := rfl
@[simp] theorem commitHeader_errDetail (s : State) : (commitHeader s).errDetail = s.errDetail := rfl
@[simp] theorem commitHeader_warnCrc (s : State) : (commitHeader s).warnCrc = s.warnCrc := rfl
@[simp] theorem commitHeader_warnSize (s : State) : (commitHeader s).warnSize = s.warnSize := rfl
@[simp] theorem commitHeader_cfgVerify (s : State) : (commitHeader s).cfgVerify = s.cfgVerify := rfl
@[simp] theorem commitHeader_snapOff (s : State) : (commitHeader s).snapOff = s.ibOff := rfl
@[simp] theorem commitHeader_snapBuf (s : State) : (commitHeader s).snapBuf = s.brBuf := rfl
@[simp] theorem commitHeader_snapLen (s : State) : (commitHeader s).snapLen = s.brLen := rfl
@[simp] theorem commitHeader_snapWlen (s : State) : (commitHeader s).snapWlen = s.win.length := rfl
@[simp] theorem commitHeader_loc (s : State) : (commitHeader s).loc = Locals.initial := rfl
@[simp] theorem commitHeader_ctl (s : State) : (commitHeader s).ctl = .run .bh := rfl
@[simp] theorem commitHeader_host (s : State) : (commitHeader s).host = s.host := rfl
@[simp] theorem commitHeader_reply (s : State) : (commitHeader s).reply = s.reply := rfl

@[simp] theorem commitTrailer_ibData (s : State) : (commitTrailer s).ibData = s.ibData := rfl
@[simp] theorem commitTrailer_ibOff (s : State) : (commitTrailer s).ibOff = s.ibOff := rfl
@[simp] theorem commitTrailer_ibEnd (s : State) : (commitTrailer s).ibEnd = s.ibEnd := rfl
@[simp] theorem commitTrailer_brBuf (s : State) : (commitTrailer s).brBuf = s.brBuf := rfl
@[simp] theorem commitTrailer_brLen (s : State) : (commitTrailer s).brLen = s.brLen := rfl
@[simp] theorem commitTrailer_phase (s : State) : (commitTrailer s).phase = .done := rfl
@[simp] theorem commitTrailer_final (s : State) : (commitTrailer s).final = s.final := rfl
@[simp] theorem commitTrailer_win (s : State) : (commitTrailer s).win = s.win := rfl
@[simp] theorem commitTrailer_out (s : State) : (commitTrailer s).out = s.out := rfl
@[simp] theorem commitTrailer_crcAcc (s : State) : (commitTrailer s).crcAcc = s.crcAcc := rfl
@[simp] theorem commitTrailer_totalOut (s : State) : (commitTrailer s).totalOut = s.totalOut := rfl
@[simp] theorem commitTrailer_trlCrc (s : State) : (commitTrailer s).trlCrc = s.trlCrc := rfl
@[simp] theorem commitTrailer_trlIsize (s : State) : (commitTrailer s).trlIsize = s.trlIsize := rfl
@[simp] theorem commitTrailer_result (s : State) : (commitTrailer s).result = .done := rfl
@[simp] theorem commitTrailer_errCode (s : State) : (commitTrailer s).errCode = s.errCode := rfl
@[simp] theorem commitTrailer_errDetail (s : State) : (commitTrailer s).errDetail = s.errDetail := rfl
@[simp] theorem commitTrailer_warnCrc (s : State) : (commitTrailer s).warnCrc = s.warnCrc := rfl
@[simp] theorem commitTrailer_warnSize (s : State) : (commitTrailer s).warnSize = s.warnSize := rfl
@[simp] theorem commitTrailer_cfgVerify (s : State) : (commitTrailer s).cfgVerify = s.cfgVerify := rfl
@[simp] theorem commitTrailer_snapOff (s : State) : (commitTrailer s).snapOff = s.snapOff := rfl
@[simp] theorem commitTrailer_snapBuf (s : State) : (commitTrailer s).snapBuf = s.snapBuf := rfl
@[simp] theorem commitTrailer_snapLen (s : State) : (commitTrailer s).snapLen = s.snapLen := rfl
@[simp] theorem commitTrailer_snapWlen (s : State) : (commitTrailer s).snapWlen = s.snapWlen := rfl
@[simp] theorem commitTrailer_loc (s : State) : (commitTrailer s).loc = Locals.initial := rfl
@[simp] theorem commitTrailer_ctl (s : State) : (commitTrailer s).ctl = .idle := rfl
@[simp] theorem commitTrailer_host (s : State) : (commitTrailer s).host = s.host := rfl
@[simp] theorem commitTrailer_reply (s : State) : (commitTrailer s).reply = .result .done := rfl

@[simp] theorem commitBlock_ibData (s : State) : (commitBlock s).ibData = s.ibData := rfl
@[simp] theorem commitBlock_ibOff (s : State) : (commitBlock s).ibOff = s.ibOff := rfl
@[simp] theorem commitBlock_ibEnd (s : State) : (commitBlock s).ibEnd = s.ibEnd := rfl
@[simp] theorem commitBlock_brBuf (s : State) : (commitBlock s).brBuf = s.brBuf := rfl
@[simp] theorem commitBlock_brLen (s : State) : (commitBlock s).brLen = s.brLen := rfl
@[simp] theorem commitBlock_phase (s : State) : (commitBlock s).phase = if s.loc.bfinal then .trailer else .block := rfl
@[simp] theorem commitBlock_final (s : State) : (commitBlock s).final = (s.final || s.loc.bfinal) := rfl
@[simp] theorem commitBlock_win (s : State) : (commitBlock s).win = s.win := rfl
@[simp] theorem commitBlock_out (s : State) : (commitBlock s).out = s.out ++ newBytes s := rfl
@[simp] theorem commitBlock_crcAcc (s : State) : (commitBlock s).crcAcc = crcUpdate s.crcAcc (newBytes s) := rfl
@[simp] theorem commitBlock_totalOut (s : State) : (commitBlock s).totalOut = sizeUpdate s.totalOut (newBytes s).length := rfl
@[simp] theorem commitBlock_trlCrc (s : State) : (commitBlock s).trlCrc = s.trlCrc := rfl
@[simp] theorem commitBlock_trlIsize (s : State) : (commitBlock s).trlIsize = s.trlIsize := rfl
@[simp] theorem commitBlock_result (s : State) : (commitBlock s).result = s.result := rfl
@[simp] theorem commitBlock_errCode (s : State) : (commitBlock s).errCode = s.errCode := rfl
@[simp] theorem commitBlock_errDetail (s : State) : (commitBlock s).errDetail = s.errDetail := rfl
@[simp] theorem commitBlock_warnCrc (s : State) : (commitBlock s).warnCrc = s.warnCrc := rfl
@[simp] theorem commitBlock_warnSize (s : State) : (commitBlock s).warnSize = s.warnSize := rfl
@[simp] theorem commitBlock_cfgVerify (s : State) : (commitBlock s).cfgVerify = s.cfgVerify := rfl
@[simp] theorem commitBlock_snapOff (s : State) : (commitBlock s).snapOff = s.ibOff := rfl
@[simp] theorem commitBlock_snapBuf (s : State) : (commitBlock s).snapBuf = s.brBuf := rfl
@[simp] theorem commitBlock_snapLen (s : State) : (commitBlock s).snapLen = s.brLen := rfl
@[simp] theorem commitBlock_snapWlen (s : State) : (commitBlock s).snapWlen = s.win.length := rfl
@[simp] theorem commitBlock_loc (s : State) : (commitBlock s).loc = Locals.initial := rfl
@[simp] theorem commitBlock_ctl (s : State) : (commitBlock s).ctl = firstSlot (if s.loc.bfinal then .trailer else .block) := rfl
@[simp] theorem commitBlock_host (s : State) : (commitBlock s).host = s.host := rfl
@[simp] theorem commitBlock_reply (s : State) : (commitBlock s).reply = s.reply := rfl

@[simp] theorem firstSlot_header : firstSlot .header = .run .gzId := rfl
@[simp] theorem firstSlot_block : firstSlot .block = .run .bh := rfl
@[simp] theorem firstSlot_trailer : firstSlot .trailer = .run .trailer := rfl

/-- The first place of the unit after a block is a running one, whatever BFINAL is. -/
theorem firstSlot_afterBlock (f : Bool) :
    firstSlot (if f then Phase.trailer else Phase.block) = .run (if f then Slot.trailer else Slot.bh) := by
  cases f <;> rfl

end Sys2Proof.Machine
end

