-- ==== Sys2Proof/Laws/Ops.lean ====
section
/-! SUPPORT. One lemma per shared operation that says everything it does: the ChunkBuffer and BitReader reads when the bits
are there and when they are not, the copies, the end of an instruction. -/

namespace Sys2Proof.Machine

section
variable {α β : Type}

@[simp] theorem bind_ready (v : α) (s : State) (f : α → State → Rd β) : (Rd.ready v s).bind f = f v s := rfl
@[simp] theorem bind_needMoreOpen (s : State) (f : α → State → Rd β) :
    (Rd.needMoreOpen s : Rd α).bind f = .needMoreOpen s := rfl
@[simp] theorem bind_needMoreClosed (s : State) (f : α → State → Rd β) :
    (Rd.needMoreClosed s : Rd α).bind f = .needMoreClosed s := rfl
@[simp] theorem bind_fatal (e : FatalError) (s : State) (f : α → State → Rd β) :
    (Rd.fatal e s : Rd α).bind f = .fatal e s := rfl

/-- A read that underflows ends everything that follows it. -/
@[simp] theorem bind_underflow (s : State) (f : α → State → Rd β) :
    (underflow s : Rd α).bind f = underflow s := by
  unfold underflow; split <;> rfl

/-- What a bind that answers `ready` went through. -/
theorem bind_eq_ready {r : Rd α} {f : α → State → Rd β} {b : β} {u : State} (h : r.bind f = .ready b u) :
    ∃ a t, r = .ready a t ∧ f a t = .ready b u := by
  cases r with
  | ready a t => exact ⟨a, t, rfl, h⟩
  | needMoreOpen t => cases h
  | needMoreClosed t => cases h
  | fatal e t => cases h

end

@[simp] theorem settle_ready (s : State) : settle (.ready () s) = s := rfl
@[simp] theorem settle_needMoreOpen (s : State) : settle (.needMoreOpen s) = suspend s := rfl
@[simp] theorem settle_needMoreClosed (s : State) : settle (.needMoreClosed s) = errorEntry .truncated s := rfl
@[simp] theorem settle_fatal (e : FatalError) (s : State) : settle (.fatal e s) = errorEntry e s := rfl
@[simp] theorem settle_underflow (s : State) :
    settle (underflow s) = stopShort s := by
  unfold underflow stopShort; split <;> rfl
@[simp] theorem finish_eq (r : Rd Unit) : finish r = .next (settle r) := rfl

/-! ### ChunkBuffer -/

theorem ibTake_ready {s : State} (h : 1 ≤ avail s) :
    ibTake s = .ready (s.ibData.getD s.ibOff 0) (taken 1 s) := by
  have h' : s.ibOff < s.ibData.length := by unfold avail at h; omega
  simp [ibTake, h', taken]

theorem ibTake_underflow {s : State} (h : avail s = 0) : ibTake s = underflow s := by
  have h' : ¬ s.ibOff < s.ibData.length := by unfold avail at h; omega
  simp [ibTake, h']

@[simp] theorem avail_taken (n : Nat) (s : State) : avail (taken n s) = avail s - n := by
  simp [avail]; omega

@[simp] theorem unread_taken (n : Nat) (s : State) : unread (taken n s) = (unread s).drop n := by
  simp [unread, List.drop_drop]

@[simp] theorem length_unread (s : State) : (unread s).length = avail s := by simp [unread, avail]

@[simp] theorem taken_taken (m n : Nat) (s : State) : taken m (taken n s) = taken (n + m) s := by
  simp [taken, Nat.add_assoc]

@[simp] theorem taken_zero (s : State) : taken 0 s = s := rfl

/-- The next byte is the head of the unread ones. -/
theorem ibTake_cons {s : State} {b : Byte} {bs : List Byte} (h : unread s = b :: bs) :
    ibTake s = .ready b (taken 1 s) := by
  have hl : 1 ≤ avail s := by rw [← length_unread, h]; simp
  have hb : s.ibData.getD s.ibOff 0 = b := by
    have := congrArg List.head? h
    simp only [unread, List.head?_drop, List.head?_cons] at this
    simp [List.getD, this]
  rw [ibTake_ready hl, hb]

theorem ibSkip_ready (n : Nat) {s : State} (h : n ≤ avail s) : ibSkip n s = .ready () (taken n s) := by
  induction n generalizing s with
  | zero => rfl
  | succ n ih =>
    rw [ibSkip, ibTake_ready (by omega), bind_ready, ih (by simp; omega), taken_taken, Nat.add_comm]

theorem ibSkip_underflow {n : Nat} {s : State} (h : avail s < n) :
    ibSkip n s = underflow (taken (avail s) s) := by
  induction n generalizing s with
  | zero => omega
  | succ n ih =>
    rcases Nat.eq_zero_or_pos (avail s) with h0 | h0
    · rw [ibSkip, ibTake_underflow h0, bind_underflow, h0, taken_zero]
    · rw [ibSkip, ibTake_ready h0, bind_ready, ih (by simp; omega), taken_taken, avail_taken,
        Nat.add_sub_of_le h0]

theorem ibSkipNulLoop_ready (name rest : List Byte) (fuel : Nat) {s : State} (h : unread s = name ++ 0 :: rest)
    (h0 : 0 ∉ name) (hf : name.length + 1 ≤ fuel) :
    ibSkipNulLoop fuel s = .ready () (taken (name.length + 1) s) := by
  induction name generalizing s fuel with
  | nil =>
    obtain ⟨fuel, rfl⟩ : ∃ k, fuel = k + 1 := ⟨fuel - 1, by simp at hf; omega⟩
    rw [ibSkipNulLoop, ibTake_cons (by simpa using h)]; simp
  | cons b name ih =>
    rw [List.length_cons] at hf
    obtain ⟨fuel, rfl⟩ : ∃ k, fuel = k + 1 := ⟨fuel - 1, by omega⟩
    simp only [List.mem_cons, not_or] at h0
    have hb : ¬ b = 0 := fun e => h0.1 e.symm
    rw [ibSkipNulLoop, ibTake_cons (by simpa using h), bind_ready, if_neg hb,
      ih (s := taken 1 s) fuel (by simp [h]) h0.2 (by omega), taken_taken, List.length_cons, Nat.add_comm 1]

/-- A NUL-terminated field is consumed with its terminator (44_gzip_framer.md R405). -/
theorem ibSkipNul_ready {name rest : List Byte} {s : State} (h : unread s = name ++ 0 :: rest) (h0 : 0 ∉ name) :
    ibSkipNul s = .ready () (taken (name.length + 1) s) := by
  refine ibSkipNulLoop_ready name rest _ h h0 ?_
  rw [← length_unread, h]; simp

theorem ibSkipNulLoop_underflow (fuel : Nat) {s : State} (h0 : 0 ∉ unread s) (hf : fuel = avail s) :
    ibSkipNulLoop fuel s = underflow (taken (avail s) s) := by
  induction fuel generalizing s with
  | zero => rw [ibSkipNulLoop, ← hf, taken_zero]
  | succ fuel ih =>
    obtain ⟨b, bs, hu⟩ : ∃ b bs, unread s = b :: bs := by
      cases hu : unread s with
      | nil => have := length_unread s; simp [hu] at this; omega
      | cons b bs => exact ⟨b, bs, rfl⟩
    rw [hu, List.mem_cons, not_or] at h0
    rw [ibSkipNulLoop, ibTake_cons hu, bind_ready, if_neg (fun e => h0.1 e.symm),
      ih (by simpa [hu] using h0.2) (by simp; omega), taken_taken, avail_taken, Nat.add_sub_of_le (by omega)]

/-- A field that never ends underflows with every byte taken (R405). -/
theorem ibSkipNul_underflow {s : State} (h0 : 0 ∉ unread s) : ibSkipNul s = underflow (taken (avail s) s) :=
  ibSkipNulLoop_underflow _ h0 rfl

/-- `IbTryTake(n)` and `n` calls of `IbTake` end with the same cursor (R135). -/
theorem ibTryTake_ready (n : Nat) {s : State} (h : n ≤ avail s) :
    ibTryTake n s = .ready ((unread s).take n) (taken n s) := by
  simp [ibTryTake, h, unread, taken]

theorem ibTryTake_underflow {n : Nat} {s : State} (h : avail s < n) : ibTryTake n s = underflow s := by
  simp [ibTryTake, Nat.not_le.mpr h]

theorem ibPeekByte_cons {s : State} {b : Byte} {bs : List Byte} (h : unread s = b :: bs) :
    ibPeekByte s = .ready b s := by
  have hl : 1 ≤ avail s := by rw [← length_unread, h]; simp
  have h' : s.ibOff < s.ibData.length := by unfold avail at hl; omega
  have := congrArg List.head? h
  simp only [unread, List.head?_drop, List.head?_cons] at this
  simp only [ibPeekByte, h', if_true, List.getD, this, Option.getD_some]

/-! ### BitReader -/

theorem bytesNat_lt (bs : List Byte) : bytesNat bs < 2 ^ (8 * bs.length) := by
  induction bs with
  | nil => simp [bytesNat]
  | cons b bs ih =>
    have hb := b.isLt
    have e : (2 : Nat) ^ (8 * (bs.length + 1)) = 256 * 2 ^ (8 * bs.length) := by
      rw [Nat.mul_add, Nat.pow_add]; omega
    simp only [bytesNat, List.length_cons, e]
    omega

theorem bytesNat_append (bs cs : List Byte) :
    bytesNat (bs ++ cs) = bytesNat bs + 2 ^ (8 * bs.length) * bytesNat cs := by
  induction bs with
  | nil => simp [bytesNat]
  | cons b bs ih =>
    have e : (2 : Nat) ^ (8 * (bs.length + 1)) = 256 * 2 ^ (8 * bs.length) := by
      rw [Nat.mul_add, Nat.pow_add]; omega
    simp only [List.cons_append, bytesNat, List.length_cons, e, ih]
    ring

theorem pending_lt {s : State} (h : s.brBuf.toNat < 2 ^ s.brLen) : pending s < 2 ^ availBits s := by
  have hb := bytesNat_lt (s.ibData.drop s.ibOff)
  have hl : (s.ibData.drop s.ibOff).length = avail s := by simp [avail]
  rw [hl] at hb
  unfold pending availBits
  rw [Nat.pow_add]
  calc s.brBuf.toNat + 2 ^ s.brLen * bytesNat (s.ibData.drop s.ibOff)
      < 2 ^ s.brLen + 2 ^ s.brLen * bytesNat (s.ibData.drop s.ibOff) := by omega
    _ = 2 ^ s.brLen * (bytesNat (s.ibData.drop s.ibOff) + 1) := by ring
    _ ≤ 2 ^ s.brLen * 2 ^ (8 * avail s) := Nat.mul_le_mul_left _ hb

/-- The unread bytes, split after `k`. -/
theorem pending_split (k : Nat) {s : State} (hk : k ≤ avail s) :
    pending s = (s.brBuf.toNat + 2 ^ s.brLen * bytesNat ((s.ibData.drop s.ibOff).take k))
      + 2 ^ (s.brLen + 8 * k) * bytesNat (s.ibData.drop (s.ibOff + k)) := by
  have hl : ((s.ibData.drop s.ibOff).take k).length = k := by
    simp [List.length_take, avail] at hk ⊢; omega
  have e := bytesNat_append ((s.ibData.drop s.ibOff).take k) (s.ibData.drop (s.ibOff + k))
  rw [← List.drop_drop, List.take_append_drop, hl] at e
  unfold pending
  rw [e, Nat.pow_add, ← List.drop_drop]
  ring

theorem pulled_low_lt (k : Nat) {s : State} (hb : s.brBuf.toNat < 2 ^ s.brLen) (hk : k ≤ avail s) :
    s.brBuf.toNat + 2 ^ s.brLen * bytesNat ((s.ibData.drop s.ibOff).take k) < 2 ^ (s.brLen + 8 * k) := by
  have hl : ((s.ibData.drop s.ibOff).take k).length = k := by
    simp [List.length_take, avail] at hk ⊢; omega
  have h := bytesNat_lt ((s.ibData.drop s.ibOff).take k)
  rw [hl] at h
  rw [Nat.pow_add]
  calc _ < 2 ^ s.brLen + 2 ^ s.brLen * bytesNat ((s.ibData.drop s.ibOff).take k) := by omega
    _ = 2 ^ s.brLen * (bytesNat ((s.ibData.drop s.ibOff).take k) + 1) := by ring
    _ ≤ _ := Nat.mul_le_mul_left _ h

theorem pending_mod_pulled (k : Nat) {s : State} (hb : s.brBuf.toNat < 2 ^ s.brLen) (hk : k ≤ avail s) :
    pending s % 2 ^ (s.brLen + 8 * k) = s.brBuf.toNat + 2 ^ s.brLen * bytesNat ((s.ibData.drop s.ibOff).take k) := by
  rw [pending_split k hk, Nat.add_mul_mod_self_left, Nat.mod_eq_of_lt (pulled_low_lt k hb hk)]

/-- BR_BUF after `k` bytes were pulled. -/
theorem pulled_toNat (k : Nat) {s : State} (h64 : s.brLen + 8 * k ≤ 64) :
    (pulled k s).brBuf.toNat = pending s % 2 ^ (s.brLen + 8 * k) := by
  rw [pulled_brBuf, BitVec.toNat_ofNat]
  exact Nat.mod_eq_of_lt (lt_of_lt_of_le (Nat.mod_lt _ (by positivity)) (Nat.pow_le_pow_right (by omega) h64))

@[simp] theorem avail_pulled (k : Nat) (s : State) : avail (pulled k s) = avail s - k := by
  simp [avail]; omega

/-- Pulling bytes into BR_BUF consumes nothing (R141, R25). -/
theorem pending_pulled (k : Nat) {s : State} (hb : s.brBuf.toNat < 2 ^ s.brLen) (hk : k ≤ avail s)
    (h64 : s.brLen + 8 * k ≤ 64) : pending (pulled k s) = pending s := by
  conv_rhs => rw [pending_split k hk]
  unfold pending
  rw [pulled_toNat k h64, pending_mod_pulled k hb hk]
  simp

theorem availBits_pulled (k : Nat) {s : State} (hk : k ≤ avail s) : availBits (pulled k s) = availBits s := by
  simp [availBits]; omega

theorem pulled_zero {s : State} (hb : s.brBuf.toNat < 2 ^ s.brLen) : pulled 0 s = s := by
  have h : BitVec.ofNat 64 (pending s % 2 ^ s.brLen) = s.brBuf := by
    have := pending_mod_pulled 0 hb (Nat.zero_le _)
    simp [bytesNat] at this
    rw [this]; simp
  simp [pulled, h]

theorem pulled_pulled (j k : Nat) {s : State} (hb : s.brBuf.toNat < 2 ^ s.brLen) (hk : k ≤ avail s)
    (h64 : s.brLen + 8 * k ≤ 64) : pulled j (pulled k s) = pulled (k + j) s := by
  have hp := pending_pulled k hb hk h64
  simp [pulled, Nat.add_assoc] at hp ⊢
  rw [hp]
  simp [Nat.mul_add]

/-- One round of `BrFill` pulls one byte (R139). -/
theorem brPush_taken {s : State} (hb : s.brBuf.toNat < 2 ^ s.brLen) (h1 : 1 ≤ avail s) (h64 : s.brLen + 8 ≤ 64) :
    brPush (s.ibData.getD s.ibOff 0) (taken 1 s) = pulled 1 s := by
  have hlt : s.ibOff < s.ibData.length := by unfold avail at h1; omega
  have htake : (s.ibData.drop s.ibOff).take 1 = [s.ibData.getD s.ibOff 0] := by
    rw [List.drop_eq_getElem_cons hlt]; simp [List.getD, hlt, List.take]
  have hm := pending_mod_pulled 1 hb h1
  rw [htake] at hm
  simp only [bytesNat, Nat.mul_zero, Nat.add_zero, Nat.mul_one] at hm
  set b := s.ibData.getD s.ibOff 0 with hbdef
  have hbuf : s.brBuf ||| (b.setWidth 64 <<< s.brLen) = BitVec.ofNat 64 (pending s % 2 ^ (s.brLen + 8)) := by
    apply BitVec.eq_of_toNat_eq
    have hb8 := b.isLt
    have hw : (b.setWidth 64).toNat = b.toNat := by
      rw [BitVec.toNat_setWidth]; exact Nat.mod_eq_of_lt (by omega)
    have hsh : (b.setWidth 64 <<< s.brLen).toNat = 2 ^ s.brLen * b.toNat := by
      rw [BitVec.toNat_shiftLeft, hw, Nat.shiftLeft_eq, Nat.mul_comm]
      refine Nat.mod_eq_of_lt ?_
      calc 2 ^ s.brLen * b.toNat < 2 ^ s.brLen * 2 ^ 8 := Nat.mul_lt_mul_of_pos_left hb8 (by positivity)
        _ = 2 ^ (s.brLen + 8) := by rw [Nat.pow_add]
        _ ≤ 2 ^ 64 := Nat.pow_le_pow_right (by omega) (by omega)
    rw [BitVec.toNat_or, hsh, Nat.or_comm, ← Nat.two_pow_add_eq_or_of_lt hb b.toNat, BitVec.toNat_ofNat, hm,
      Nat.mod_eq_of_lt, Nat.add_comm]
    calc s.brBuf.toNat + 2 ^ s.brLen * b.toNat < 2 ^ (s.brLen + 8) := by
          have := pulled_low_lt 1 hb h1
          rw [htake] at this
          simpa [bytesNat] using this
      _ ≤ 2 ^ 64 := Nat.pow_le_pow_right (by omega) h64
  simp [brPush, taken, pulled, hbuf]

end Sys2Proof.Machine
end

