-- ==== Sys2Proof/Laws/BitReader.lean ====
section
/-! SUPPORT. What the BitReader's reads answer (40_input_bitreader.md R139 to R146), in terms of the pending bits. -/

namespace Sys2Proof.Machine

theorem pulled_lt (k : Nat) {s : State} (h64 : s.brLen + 8 * k ≤ 64) :
    (pulled k s).brBuf.toNat < 2 ^ (pulled k s).brLen := by
  rw [pulled_toNat k h64]; exact Nat.mod_lt _ (by positivity)

theorem fillBytes_le {n : Nat} {s : State} (h : n ≤ availBits s) : fillBytes n s ≤ avail s := by
  unfold fillBytes; unfold availBits at h; omega

theorem le_peeked (n : Nat) (s : State) : n ≤ s.brLen + 8 * fillBytes n s := by unfold fillBytes; omega

theorem brFillLoop_ready (fuel n : Nat) {s : State} (hb : s.brBuf.toNat < 2 ^ s.brLen) (hn : n ≤ availBits s)
    (h64 : s.brLen + 8 * fillBytes n s ≤ 64) (hf : fillBytes n s ≤ fuel) :
    brFillLoop fuel n s = .ready () (peeked n s) := by
  induction fuel generalizing s with
  | zero =>
    have h0 : fillBytes n s = 0 := by omega
    rw [brFillLoop, peeked, h0, pulled_zero hb]
  | succ fuel ih =>
    rw [brFillLoop]
    by_cases hlt : s.brLen < n
    · have h1 : 1 ≤ avail s := by unfold availBits at hn; omega
      have hk : fillBytes n s = 1 + fillBytes n (pulled 1 s) := by simp [fillBytes]; omega
      have h72 : s.brLen + 8 ≤ 64 := by omega
      rw [if_pos hlt, ibTake_ready h1, bind_ready, brPush_taken hb h1 h72,
        ih (pulled_lt 1 (by omega)) (by rw [availBits_pulled 1 h1]; exact hn) (by simp; omega) (by omega)]
      rw [peeked, peeked, pulled_pulled _ _ hb h1 (by omega), hk]
    · have h0 : fillBytes n s = 0 := by unfold fillBytes; omega
      rw [if_neg hlt, peeked, h0, pulled_zero hb]

theorem brFillLoop_underflow (fuel n : Nat) {s : State} (hb : s.brBuf.toNat < 2 ^ s.brLen) (hn : availBits s < n)
    (h64 : n ≤ 57) (hf : avail s < fuel) : brFillLoop fuel n s = underflow (drained s) := by
  induction fuel generalizing s with
  | zero => omega
  | succ fuel ih =>
    have hlt : s.brLen < n := by unfold availBits at hn; omega
    rw [brFillLoop, if_pos hlt]
    rcases Nat.eq_zero_or_pos (avail s) with h0 | h0
    · rw [ibTake_underflow h0, bind_underflow, drained, h0, pulled_zero hb]
    · have hav : s.brLen + 8 * avail s < n := hn
      rw [ibTake_ready h0, bind_ready, brPush_taken hb h0 (by omega),
        ih (pulled_lt 1 (by omega)) (by rw [availBits_pulled 1 h0]; exact hn) (by simp; omega)]
      rw [drained, drained, pulled_pulled _ _ hb h0 (by omega), avail_pulled, Nat.add_sub_of_le h0]

section
variable {n : Nat} {s : State}

theorem fill_bound (hb : BitsOk s.brBuf s.brLen) (hn : n ≤ 16) : s.brLen + 8 * fillBytes n s ≤ 23 := by
  have := hb.1; unfold fillBytes; omega

/-- `BrFill(n)` with enough bits (R139). -/
theorem brFill_ready (hb : BitsOk s.brBuf s.brLen) (hn : n ≤ 16) (h : n ≤ availBits s) :
    brFill n s = .ready () (peeked n s) :=
  brFillLoop_ready n n hb.2 h (by have := fill_bound hb hn; omega) (by unfold fillBytes; omega)

/-- `BrFill(n)` with too few bits: every byte was taken (R139, R144). -/
theorem brFill_underflow (hb : BitsOk s.brBuf s.brLen) (hn : n ≤ 16) (h : availBits s < n) :
    brFill n s = underflow (drained s) :=
  brFillLoop_underflow n n hb.2 h (by omega) (by unfold availBits at h; omega)

theorem peeked_toNat_mod (hb : BitsOk s.brBuf s.brLen) (hn : n ≤ 16) :
    (peeked n s).brBuf.toNat % 2 ^ n = pending s % 2 ^ n := by
  rw [peeked, pulled_toNat _ (by have := fill_bound hb hn; omega),
    Nat.mod_mod_of_dvd _ (Nat.pow_dvd_pow 2 (le_peeked n s))]

/-- `BrPeek(n)` with enough bits: the next `n` bits, nothing consumed (R141). -/
theorem brPeek_ready (hb : BitsOk s.brBuf s.brLen) (hn : n ≤ 16) (h : n ≤ availBits s) :
    brPeek n s = .ready (pending s % 2 ^ n) (peeked n s) := by
  rw [brPeek, brFill_ready hb hn h, bind_ready, peeked_toNat_mod hb hn]

theorem brPeek_underflow (hb : BitsOk s.brBuf s.brLen) (hn : n ≤ 16) (h : availBits s < n) :
    brPeek n s = underflow (drained s) := by
  rw [brPeek, brFill_underflow hb hn h, bind_underflow]

/-- `BrShift(n)` with enough bits: the next `n` bits, consumed (R140). -/
theorem brShift_ready (hb : BitsOk s.brBuf s.brLen) (hn : n ≤ 16) (h : n ≤ availBits s) :
    brShift n s = .ready (pending s % 2 ^ n) (drawn n s) := by
  rw [brShift, brFill_ready hb hn h, bind_ready, peeked_toNat_mod hb hn]; rfl

theorem brShift_underflow (hb : BitsOk s.brBuf s.brLen) (hn : n ≤ 16) (h : availBits s < n) :
    brShift n s = underflow (drained s) := by
  rw [brShift, brFill_underflow hb hn h, bind_underflow]

theorem bitsOk_peeked (hb : BitsOk s.brBuf s.brLen) (hn : n ≤ 16) : BitsOk (peeked n s).brBuf (peeked n s).brLen :=
  ⟨by simpa [peeked] using fill_bound hb hn, pulled_lt _ (by have := fill_bound hb hn; omega)⟩

theorem pending_peeked (hb : BitsOk s.brBuf s.brLen) (hn : n ≤ 16) (h : n ≤ availBits s) :
    pending (peeked n s) = pending s :=
  pending_pulled _ hb.2 (fillBytes_le h) (by have := fill_bound hb hn; omega)

theorem availBits_peeked (h : n ≤ availBits s) : availBits (peeked n s) = availBits s :=
  availBits_pulled _ (fillBytes_le h)

theorem bitsOk_drained (hn : n ≤ 16) (h : availBits s < n) :
    BitsOk (drained s).brBuf (drained s).brLen := by
  unfold availBits at h
  exact ⟨by simp [drained]; omega, pulled_lt _ (by omega)⟩

end

/-- Dropping valid bits keeps BR_BUF clean (R142). -/
theorem bitsOk_brDrop (n : Nat) {s : State} (hb : BitsOk s.brBuf s.brLen) :
    BitsOk (brDrop n s).brBuf (brDrop n s).brLen := by
  refine ⟨by simp; have := hb.1; omega, ?_⟩
  simp only [brDrop_brBuf, brDrop_brLen, BitVec.toNat_ushiftRight, Nat.shiftRight_eq_div_pow]
  rw [Nat.div_lt_iff_lt_mul (by positivity), ← Nat.pow_add]
  exact lt_of_lt_of_le hb.2 (Nat.pow_le_pow_right (by omega) (by omega))

/-- `BrDrop(n)` of valid bits moves the stream on by `n` bits (R142). -/
theorem pending_brDrop {n : Nat} {s : State} (hn : n ≤ s.brLen) : pending (brDrop n s) = pending s / 2 ^ n := by
  obtain ⟨k, hk⟩ : ∃ k, s.brLen = n + k := ⟨s.brLen - n, by omega⟩
  simp only [pending, brDrop_brBuf, brDrop_brLen, brDrop_ibData, brDrop_ibOff, BitVec.toNat_ushiftRight,
    Nat.shiftRight_eq_div_pow]
  rw [hk, Nat.add_sub_cancel_left, Nat.pow_add, Nat.mul_assoc, Nat.add_mul_div_left _ _ (by positivity)]

theorem availBits_brDrop {n : Nat} {s : State} (hn : n ≤ s.brLen) : availBits (brDrop n s) = availBits s - n := by
  simp [availBits, avail]; omega

section
variable {n : Nat} {s : State}

theorem bitsOk_drawn (hb : BitsOk s.brBuf s.brLen) (hn : n ≤ 16) : BitsOk (drawn n s).brBuf (drawn n s).brLen :=
  bitsOk_brDrop n (bitsOk_peeked hb hn)

/-- Drawing `n` bits moves the stream on by `n` bits. -/
theorem pending_drawn (hb : BitsOk s.brBuf s.brLen) (hn : n ≤ 16) (h : n ≤ availBits s) :
    pending (drawn n s) = pending s / 2 ^ n := by
  rw [drawn, pending_brDrop (by simpa [peeked] using le_peeked n s), pending_peeked hb hn h]

theorem availBits_drawn (h : n ≤ availBits s) : availBits (drawn n s) = availBits s - n := by
  rw [drawn, availBits_brDrop (by simpa [peeked] using le_peeked n s), availBits_peeked h]

/-- Every consuming read raises POS by the bits read (10_state.md R25). -/
theorem pos_drawn (h8 : s.brLen ≤ 8 * s.ibOff) : pos (drawn n s) = pos s + n := by
  have := le_peeked n s
  simp [pos, drawn, peeked]; omega

/-- A peek does not move POS (10_state.md R25). -/
theorem pos_peeked (h8 : s.brLen ≤ 8 * s.ibOff) : pos (peeked n s) = pos s := by
  simp [pos, peeked]; omega

/-- Drawing nothing changes nothing (R140). -/
theorem drawn_zero (hb : BitsOk s.brBuf s.brLen) : drawn 0 s = s := by
  have h0 : fillBytes 0 s = 0 := by simp [fillBytes]
  rw [drawn, peeked, h0, pulled_zero hb.2]
  simp [brDrop]

end

/-! ### Alignment and whole bytes (R143, R146) -/

theorem bitsOk_brAlign {s : State} (hb : BitsOk s.brBuf s.brLen) : BitsOk (brAlign s).brBuf (brAlign s).brLen :=
  bitsOk_brDrop _ hb

theorem pending_brAlign (s : State) : pending (brAlign s) = pending s / 2 ^ (s.brLen % 8) :=
  pending_brDrop (Nat.mod_le _ _)

theorem availBits_brAlign (s : State) : availBits (brAlign s) = availBits s - s.brLen % 8 :=
  availBits_brDrop (Nat.mod_le _ _)

/-! ### The untouched fields of a read -/

@[simp] theorem peeked_eq (n : Nat) (s : State) : peeked n s = pulled (fillBytes n s) s := rfl

@[simp] theorem drawn_loc (n : Nat) (s : State) : (drawn n s).loc = s.loc := rfl
@[simp] theorem drawn_win (n : Nat) (s : State) : (drawn n s).win = s.win := rfl
@[simp] theorem drawn_out (n : Nat) (s : State) : (drawn n s).out = s.out := rfl
@[simp] theorem drawn_phase (n : Nat) (s : State) : (drawn n s).phase = s.phase := rfl
@[simp] theorem drawn_ibData (n : Nat) (s : State) : (drawn n s).ibData = s.ibData := rfl
@[simp] theorem drawn_ibEnd (n : Nat) (s : State) : (drawn n s).ibEnd = s.ibEnd := rfl
@[simp] theorem drawn_snapWlen (n : Nat) (s : State) : (drawn n s).snapWlen = s.snapWlen := rfl

/-- Reads and peeks touch the read cursor and the bit accumulator only. -/
theorem drawn_eq (n : Nat) (s : State) :
    drawn n s = { s with ibOff := (drawn n s).ibOff, brBuf := (drawn n s).brBuf, brLen := (drawn n s).brLen } := rfl

end Sys2Proof.Machine
end

