-- ==== Sys2Proof/Laws/Reads.lean ====
section
/-! SUPPORT. What the operand forms and the copies answer: whole bytes, a symbol, a length, a distance, a stored run, a
back-reference. -/

namespace Sys2Proof.Machine

/-! ### Whole bytes through the BitReader (40_input_bitreader.md R146) -/

section
variable {s : State}

@[simp] theorem drawnFields_zero (w : Nat) (s : State) : drawnFields w 0 s = s := rfl
@[simp] theorem drawnFields_succ (w n : Nat) (s : State) : drawnFields w (n + 1) s = drawnFields w n (drawn w s) := rfl

theorem bitsOk_drawnFields {w : Nat} (hw : w ≤ 16) (n : Nat) (hb : BitsOk s.brBuf s.brLen) :
    BitsOk (drawnFields w n s).brBuf (drawnFields w n s).brLen := by
  induction n generalizing s with
  | zero => exact hb
  | succ n ih => exact ih (bitsOk_drawn hb hw)

theorem pending_drawnFields {w : Nat} (hw : w ≤ 16) (n : Nat) (hb : BitsOk s.brBuf s.brLen) (h : w * n ≤ availBits s) :
    pending (drawnFields w n s) = pending s / 2 ^ (w * n) := by
  induction n generalizing s with
  | zero => simp
  | succ n ih =>
    have e : w * (n + 1) = w * n + w := Nat.mul_succ w n
    rw [drawnFields_succ, ih (bitsOk_drawn hb hw) (by rw [availBits_drawn (by omega)]; omega),
      pending_drawn hb hw (by omega), Nat.div_div_eq_div_mul, ← Nat.pow_add]
    congr 2; omega

theorem availBits_drawnFields {w : Nat} (n : Nat) (h : w * n ≤ availBits s) :
    availBits (drawnFields w n s) = availBits s - w * n := by
  induction n generalizing s with
  | zero => simp
  | succ n ih =>
    have e : w * (n + 1) = w * n + w := Nat.mul_succ w n
    rw [drawnFields_succ, ih (by rw [availBits_drawn (by omega)]; omega), availBits_drawn (by omega)]; omega

/-- Drawing fields touches the read cursor and the bit accumulator only. -/
theorem drawnFields_eq (w n : Nat) (s : State) :
    drawnFields w n s = { s with
      ibOff := (drawnFields w n s).ibOff, brBuf := (drawnFields w n s).brBuf, brLen := (drawnFields w n s).brLen } := by
  induction n generalizing s with
  | zero => rfl
  | succ n ih => rw [drawnFields_succ, ih]; rfl

theorem brWordLe_ready (n : Nat) (hb : BitsOk s.brBuf s.brLen) (h : 8 * n ≤ availBits s) :
    brWordLe n s = .ready (pending s % 2 ^ (8 * n)) (drawnFields 8 n s) := by
  induction n generalizing s with
  | zero => simp [brWordLe, Nat.mod_one]
  | succ n ih =>
    rw [brWordLe, brShift_ready hb (by omega) (by omega), bind_ready,
      ih (bitsOk_drawn hb (by omega)) (by rw [availBits_drawn (by omega)]; omega), bind_ready,
      pending_drawn hb (by omega) (by omega)]
    have e : (2 : Nat) ^ (8 * (n + 1)) = 2 ^ 8 * 2 ^ (8 * n) := by rw [← Nat.pow_add]; congr 1; omega
    rw [e, Nat.mod_mul]; rfl

/-- The bytes of a number, read one byte further. -/
theorem natBytes_append_one (n v : Nat) : natBytes (n + 1) v = BitVec.ofNat 8 (v % 2 ^ 8) :: natBytes n (v / 2 ^ 8) := by
  simp only [natBytes]
  congr 1
  apply BitVec.eq_of_toNat_eq
  simp

@[simp] theorem length_natBytes (n v : Nat) : (natBytes n v).length = n := by
  induction n generalizing v with
  | zero => rfl
  | succ n ih => simp [natBytes, ih]

/-- Writing the window does not disturb a draw. -/
theorem drawn_winWrite (n : Nat) (b : Byte) (s : State) : drawn n (winWrite b s) = winWrite b (drawn n s) := rfl

theorem drawnFields_winWrite (n : Nat) (b : Byte) (s : State) :
    drawnFields 8 n (winWrite b s) = winWrite b (drawnFields 8 n s) := by
  induction n generalizing s with
  | zero => rfl
  | succ n ih => rw [drawnFields_succ, drawn_winWrite, ih]; rfl

/-- A stored run that is all there (42_deflate_blocks.md R204). -/
theorem copyStored_ready (n : Nat) (hb : BitsOk s.brBuf s.brLen) (h : 8 * n ≤ availBits s) :
    copyStored n s = .ready () { drawnFields 8 n s with win := s.win ++ streamBytes n s } := by
  induction n generalizing s with
  | zero => simp [copyStored, streamBytes, natBytes]
  | succ n ih =>
    have ha : availBits (winWrite (BitVec.ofNat 8 (pending s % 2 ^ 8)) (drawn 8 s)) = availBits s - 8 :=
      availBits_drawn (by omega)
    have hp : pending (winWrite (BitVec.ofNat 8 (pending s % 2 ^ 8)) (drawn 8 s)) = pending s / 2 ^ 8 :=
      pending_drawn hb (by omega) (by omega)
    rw [copyStored, brShift_ready hb (by omega) (by omega), bind_ready,
      ih (s := winWrite _ (drawn 8 s)) (bitsOk_drawn hb (by omega)) (by rw [ha]; omega)]
    simp only [streamBytes, hp, natBytes_append_one, drawnFields_winWrite, drawnFields_succ, winWrite_win, drawn_win,
      List.append_assoc, List.singleton_append]
    rfl

end

/-! ### The copy of a back-reference (43_deflate_symbols.md R303) -/

/-- A copy writes the window only. -/
theorem copyMatch_eq (n dist : Nat) (s : State) : copyMatch n dist s = { s with win := (copyMatch n dist s).win } := by
  induction n generalizing s with
  | zero => rfl
  | succ n ih => rw [copyMatch, ih]; rfl

@[simp] theorem length_copyMatch (n dist : Nat) (s : State) : (copyMatch n dist s).win.length = s.win.length + n := by
  induction n generalizing s with
  | zero => rfl
  | succ n ih => rw [copyMatch, ih]; simp; omega

/-- A copy keeps what the window held. -/
theorem win_isPrefix_copyMatch (n dist : Nat) (s : State) : s.win <+: (copyMatch n dist s).win := by
  induction n generalizing s with
  | zero => exact List.prefix_rfl
  | succ n ih => rw [copyMatch]; exact (List.prefix_append s.win [winRead dist s]).trans (ih (winWrite (winRead dist s) s))

theorem copyBackRef_ready (len : Nat) {dist : Nat} {s : State} (h : dist ≤ s.win.length) :
    copyBackRef len dist s = .ready () (copyMatch len dist s) := by
  rw [copyBackRef, if_neg (by omega)]

theorem copyBackRef_tooFar (len : Nat) {dist : Nat} {s : State} (h : s.win.length < dist) :
    copyBackRef len dist s = .fatal (.invalidDeflateBlock .distTooFar) s := by rw [copyBackRef, if_pos h]

/-! ### Symbols and their extra bits -/

section
variable {t : Table} {s : State}

/-- `Decode` of a code that the table holds (41_huffman_table.md R176). -/
theorem decodeSymbol_ready (hb : BitsOk s.brBuf s.brLen) (hm : t.m ≤ 16) (ha : t.m ≤ availBits s)
    (hc : t.codeLen.getD (pending s % 2 ^ t.m) 0 ≠ 0) (hl : t.codeLen.getD (pending s % 2 ^ t.m) 0 ≤ t.m) :
    ∃ u, decodeSymbol t s = .ready (t.symbol.getD (pending s % 2 ^ t.m) 0) u ∧ BitsOk u.brBuf u.brLen ∧
      pending u = pending s / 2 ^ t.codeLen.getD (pending s % 2 ^ t.m) 0 ∧
      availBits u = availBits s - t.codeLen.getD (pending s % 2 ^ t.m) 0 ∧
      u = { s with ibOff := u.ibOff, brBuf := u.brBuf, brLen := u.brLen } := by
  have hle : t.codeLen.getD (pending s % 2 ^ t.m) 0 ≤ (peeked t.m s).brLen :=
    hl.trans (by simpa using le_peeked t.m s)
  refine ⟨_, by rw [decodeSymbol, brPeek_ready hb hm ha, bind_ready, if_neg hc], ?_, ?_, ?_, rfl⟩
  · exact bitsOk_brDrop _ (bitsOk_peeked hb hm)
  · rw [pending_brDrop hle, pending_peeked hb hm ha]
  · rw [availBits_brDrop hle, availBits_peeked ha]

/-- `Decode` of bits no code begins with (R176). -/
theorem decodeSymbol_unassigned (hb : BitsOk s.brBuf s.brLen) (hm : t.m ≤ 16) (ha : t.m ≤ availBits s)
    (hc : t.codeLen.getD (pending s % 2 ^ t.m) 0 = 0) :
    decodeSymbol t s = .fatal (.invalidDeflateBlock .unassignedCode) (peeked t.m s) := by
  rw [decodeSymbol, brPeek_ready hb hm ha, bind_ready, if_pos hc]

/-- `Decode` with fewer bits than the table's longest code (R176). -/
theorem decodeSymbol_underflow (hb : BitsOk s.brBuf s.brLen) (hm : t.m ≤ 16) (ha : availBits s < t.m) :
    decodeSymbol t s = underflow (drained s) := by
  rw [decodeSymbol, brPeek_underflow hb hm ha, bind_underflow]

theorem lextra_le (k : Nat) : lextra.getD k 0 ≤ 5 := by
  by_cases h : k < 29
  · revert k; decide
  · have : lextra.length ≤ k := by simp [lextra]; omega
    simp [List.getD, List.getElem?_eq_none this]

theorem dextra_le (k : Nat) : dextra.getD k 0 ≤ 13 := by
  by_cases h : k < 30
  · revert k; decide
  · have : dextra.length ≤ k := by simp [dextra]; omega
    simp [List.getD, List.getElem?_eq_none this]

/-- A length value whose extra bits are there (43_deflate_symbols.md R302). -/
theorem lengthValue_ready (k : Nat) (hb : BitsOk s.brBuf s.brLen) (h : lextra.getD k 0 ≤ availBits s) :
    lengthValue k s = .ready (min (lbase.getD k 0 + pending s % 2 ^ lextra.getD k 0) Config.pLenMax)
      (drawn (lextra.getD k 0) s) := by
  rw [lengthValue, brShift_ready hb (by have := lextra_le k; omega) h, bind_ready]

theorem lengthValue_underflow (k : Nat) (hb : BitsOk s.brBuf s.brLen) (h : availBits s < lextra.getD k 0) :
    lengthValue k s = underflow (drained s) := by
  rw [lengthValue, brShift_underflow hb (by have := lextra_le k; omega) h, bind_underflow]

/-- A distance value whose extra bits are there (R304). -/
theorem distanceValue_ready (d : Nat) (hb : BitsOk s.brBuf s.brLen) (h : dextra.getD d 0 ≤ availBits s) :
    distanceValue d s = .ready (dbase.getD d 0 + pending s % 2 ^ dextra.getD d 0) (drawn (dextra.getD d 0) s) := by
  rw [distanceValue, brShift_ready hb (by have := dextra_le d; omega) h, bind_ready]

theorem distanceValue_underflow (d : Nat) (hb : BitsOk s.brBuf s.brLen) (h : availBits s < dextra.getD d 0) :
    distanceValue d s = underflow (drained s) := by
  rw [distanceValue, brShift_underflow hb (by have := dextra_le d; omega) h, bind_underflow]

end

end Sys2Proof.Machine
end

