-- ==== Sys2Proof/Laws/Memory.lean ====
section
/-! SUPPORT. Every operation over the storage spaces keeps their form `Memory.wf`, and reset has it. -/

namespace Sys2Proof.Machine

theorem wf_reset : Memory.wf State.reset := by decide

/-- The table that no block has built. -/
theorem tableOk_empty {n : Nat} (h : 0 < n) : Table.empty.Ok n := by
  refine ⟨by decide, by decide, by decide, by decide, ?_⟩
  intro x hx
  simp [Table.empty] at hx
  omega

section
variable {α β : Type}

theorem wf_bind {r : Rd α} {f : α → State → Rd β} (hr : Memory.wf r.state)
    (hf : ∀ v t, Memory.wf t → Memory.wf (f v t).state) : Memory.wf (r.bind f).state := by
  cases r with
  | ready v t => exact hf v t hr
  | needMoreOpen t => exact hr
  | needMoreClosed t => exact hr
  | fatal e t => exact hr

@[simp] theorem state_underflow (s : State) : (underflow s : Rd α).state = s := by unfold underflow; split <;> rfl

end

section
variable {s : State} (hw : Memory.wf s)
include hw

/-! ### ChunkBuffer -/

theorem wf_ibAppend (chunk : List Byte) : Memory.wf (ibAppend chunk s) := by
  obtain ⟨h1, h2, h⟩ := hw
  unfold ibAppend
  split
  · exact ⟨h1, h2, h⟩
  · exact ⟨by simp; omega, by simp; omega, h⟩

theorem wf_ibCloseEnd : Memory.wf (ibCloseEnd s) := hw

theorem wf_taken {n : Nat} (h : n ≤ avail s) : Memory.wf (taken n s) := by
  obtain ⟨h1, h2⟩ := hw
  refine ⟨?_, h2⟩
  unfold avail at h
  simp; omega

theorem wf_ibTake : Memory.wf (ibTake s).state := by
  rcases Nat.eq_zero_or_pos (avail s) with h | h
  · rw [ibTake_underflow h]; simpa using hw
  · rw [ibTake_ready h]; exact wf_taken hw h

theorem wf_ibTryTake (n : Nat) : Memory.wf (ibTryTake n s).state := by
  rcases Nat.lt_or_ge (avail s) n with h | h
  · rw [ibTryTake_underflow h]; simpa using hw
  · rw [ibTryTake_ready n h]; exact wf_taken hw h

theorem wf_ibPeekByte : Memory.wf (ibPeekByte s).state := by
  unfold ibPeekByte; split
  · exact hw
  · simpa using hw

theorem wf_ibCheckpoint : Memory.wf (ibCheckpoint s) := ⟨hw.1, hw.1, hw.2.2⟩

theorem wf_ibRestore : Memory.wf (ibRestore s) := ⟨hw.2.1, hw.2.1, hw.2.2⟩

theorem wf_ibSkip (n : Nat) : Memory.wf (ibSkip n s).state := by
  rcases Nat.lt_or_ge (avail s) n with h | h
  · rw [ibSkip_underflow h, state_underflow]; exact wf_taken hw le_rfl
  · rw [ibSkip_ready n h]; exact wf_taken hw h

theorem wf_ibSkipNulLoop (fuel : Nat) : Memory.wf (ibSkipNulLoop fuel s).state := by
  induction fuel generalizing s with
  | zero => simpa [ibSkipNulLoop] using hw
  | succ fuel ih =>
    rw [ibSkipNulLoop]
    refine wf_bind (wf_ibTake hw) fun b t ht => ?_
    split
    · exact ht
    · exact ih ht

theorem wf_ibSkipNul : Memory.wf (ibSkipNul s).state := wf_ibSkipNulLoop hw _

/-! ### BitReader -/

theorem wf_pulled {k : Nat} (h : k ≤ avail s) (h23 : s.brLen + 8 * k ≤ 23) : Memory.wf (pulled k s) := by
  obtain ⟨h1, h2, h3, h4⟩ := hw
  refine ⟨?_, h2, ⟨by simpa using h23, pulled_lt k (by omega)⟩, h4⟩
  unfold avail at h
  simp; omega

theorem wf_drained {n : Nat} (hn : n ≤ 16) (h : availBits s < n) : Memory.wf (drained s) :=
  wf_pulled hw le_rfl (by unfold availBits at h; omega)

theorem wf_peeked {n : Nat} (hn : n ≤ 16) (h : n ≤ availBits s) : Memory.wf (peeked n s) :=
  wf_pulled hw (fillBytes_le h) (fill_bound hw.2.2.1 hn)

theorem wf_brDrop (n : Nat) : Memory.wf (brDrop n s) :=
  ⟨hw.1, hw.2.1, bitsOk_brDrop n hw.2.2.1, hw.2.2.2⟩

theorem wf_drawn {n : Nat} (hn : n ≤ 16) (h : n ≤ availBits s) : Memory.wf (drawn n s) :=
  wf_brDrop (wf_peeked hw hn h) n

theorem wf_brAlign : Memory.wf (brAlign s) := wf_brDrop hw _

theorem wf_brFill {n : Nat} (hn : n ≤ 16) : Memory.wf (brFill n s).state := by
  rcases Nat.lt_or_ge (availBits s) n with h | h
  · rw [brFill_underflow hw.2.2.1 hn h, state_underflow]; exact wf_drained hw hn h
  · rw [brFill_ready hw.2.2.1 hn h]; exact wf_peeked hw hn h

theorem wf_brPeek {n : Nat} (hn : n ≤ 16) : Memory.wf (brPeek n s).state :=
  wf_bind (wf_brFill hw hn) fun _ _ ht => ht

theorem wf_brShift {n : Nat} (hn : n ≤ 16) : Memory.wf (brShift n s).state :=
  wf_bind (wf_brFill hw hn) fun _ _ ht => wf_brDrop ht n

theorem wf_brWordLe (n : Nat) : Memory.wf (brWordLe n s).state := by
  induction n generalizing s with
  | zero => exact hw
  | succ n ih => exact wf_bind (wf_brShift hw (by omega)) fun _ _ ht => wf_bind (ih ht) fun _ _ hu => hu

/-! ### Window and snapshot -/

theorem wf_winWrite (b : Byte) : Memory.wf (winWrite b s) := hw

theorem wf_copyStored (n : Nat) : Memory.wf (copyStored n s).state := by
  induction n generalizing s with
  | zero => exact hw
  | succ n ih => exact wf_bind (wf_brShift hw (by omega)) fun _ _ ht => ih (wf_winWrite ht _)

theorem wf_copyMatch (n dist : Nat) : Memory.wf (copyMatch n dist s) := by rw [copyMatch_eq]; exact hw

theorem wf_snapshot : Memory.wf (snapshot s) :=
  ⟨hw.1, hw.1, hw.2.2.1, hw.2.2.1, hw.2.2.2.2⟩

theorem wf_restore : Memory.wf (restore s) :=
  ⟨hw.2.1, hw.2.1, hw.2.2.2.1, hw.2.2.2.1, tableOk_empty (by omega), tableOk_empty (by omega),
    tableOk_empty (by omega)⟩

end

/-! ### The stream cursors (10_state.md R25; 40_input_bitreader.md R137) -/

theorem cursorOk_reset : CursorOk State.reset := by decide

section
variable {s : State} (hc : CursorOk s)
include hc

theorem cursorOk_taken (n : Nat) : CursorOk (taken n s) :=
  ⟨by have := hc.1; simp; omega, hc.2.1, fun h => by have := hc.2.2 h; simp; omega⟩

theorem cursorOk_pulled (k : Nat) : CursorOk (pulled k s) :=
  ⟨by have := hc.1; simp; omega, hc.2.1, fun h => by have := hc.2.2 h; simp; omega⟩

theorem cursorOk_brDrop (n : Nat) : CursorOk (brDrop n s) :=
  ⟨by have := hc.1; simp; omega, hc.2⟩

theorem cursorOk_drawn (n : Nat) : CursorOk (drawn n s) := cursorOk_brDrop (cursorOk_pulled hc _) n

theorem cursorOk_drawnFields (w n : Nat) : CursorOk (drawnFields w n s) := by
  induction n generalizing s with
  | zero => exact hc
  | succ n ih => exact ih (cursorOk_drawn hc w)

theorem cursorOk_brAlign : CursorOk (brAlign s) := cursorOk_brDrop hc _

theorem cursorOk_winWrite (b : Byte) : CursorOk (winWrite b s) := hc

/-- A unit starts with its snapshot at the cursor. -/
theorem cursorOk_startUnit : CursorOk (startUnit s) := ⟨hc.1, hc.1, fun _ => le_rfl⟩

theorem cursorOk_restore : CursorOk (restore s) := ⟨hc.2.1, hc.2.1, fun _ => le_rfl⟩

/-- A restore never moves the cursor forward (R137). -/
theorem ibOff_restore_le (h : s.ctl ≠ .idle) : (restore s).ibOff ≤ s.ibOff := hc.2.2 h

end

/-! ### Table memories (41_huffman_table.md R170, R175) -/

theorem le_foldl_max (ls : List Nat) (a : Nat) : a ≤ ls.foldl max a ∧ ∀ x ∈ ls, x ≤ ls.foldl max a := by
  induction ls generalizing a with
  | nil => simp
  | cons l ls ih =>
    obtain ⟨h1, h2⟩ := ih (max a l)
    simp only [List.foldl_cons, List.mem_cons, forall_eq_or_imp]
    exact ⟨by omega, by omega, h2⟩

theorem le_maxLen {lens : List Nat} {x : Nat} (h : x ∈ lens) : x ≤ maxLen lens := (le_foldl_max lens 0).2 x h

theorem foldl_max_le {ls : List Nat} {a b : Nat} (ha : a ≤ b) (h : ∀ x ∈ ls, x ≤ b) : ls.foldl max a ≤ b := by
  induction ls generalizing a with
  | nil => exact ha
  | cons l ls ih =>
    simp only [List.mem_cons, forall_eq_or_imp] at h
    exact ih (by omega) h.2

theorem maxLen_le {lens : List Nat} {b : Nat} (h : ∀ x ∈ lens, x ≤ b) : maxLen lens ≤ b :=
  foldl_max_le (Nat.zero_le b) h

theorem codeWordsFrom_bound (i : Nat) (ls cs : List Nat) :
    ∀ w ∈ codeWordsFrom i ls cs, w.sym < i + ls.length ∧ w.len ∈ ls := by
  induction ls generalizing i cs with
  | nil => intro w h; simp [codeWordsFrom] at h
  | cons l ls ih =>
    cases cs with
    | nil => intro w h; simp [codeWordsFrom] at h
    | cons c cs =>
      intro w h
      rw [codeWordsFrom] at h
      split at h
      · obtain ⟨h1, h2⟩ := ih (i + 1) cs w h
        exact ⟨by simp; omega, by simp [h2]⟩
      · rcases List.mem_cons.mp h with rfl | h
        · exact ⟨by simp, by simp⟩
        · obtain ⟨h1, h2⟩ := ih (i + 1) cs w h
          exact ⟨by simp; omega, by simp [h2]⟩

theorem codeWords_bound {lens : List Nat} {w : CodeWord} (h : w ∈ codeWords lens) :
    w.sym < lens.length ∧ w.len ≤ maxLen lens := by
  obtain ⟨h1, h2⟩ := codeWordsFrom_bound 0 lens _ w h
  exact ⟨by omega, le_maxLen h2⟩

theorem slotEntry_bound {ws : List CodeWord} {n m : Nat} (hn : 0 < n) (h : ∀ w ∈ ws, w.sym < n ∧ w.len ≤ m) (j : Nat) :
    (slotEntry ws j).1 < n ∧ (slotEntry ws j).2 ≤ m := by
  unfold slotEntry
  suffices ∀ e : Nat × Nat, e.1 < n ∧ e.2 ≤ m →
      (ws.foldl (fun e w => if j % 2 ^ w.len = w.rev then (w.sym, w.len) else e) e).1 < n ∧
        (ws.foldl (fun e w => if j % 2 ^ w.len = w.rev then (w.sym, w.len) else e) e).2 ≤ m from
    this (0, 0) ⟨hn, Nat.zero_le _⟩
  induction ws with
  | nil => exact fun _ he => he
  | cons w ws ih =>
    intro e he
    simp only [List.mem_cons, forall_eq_or_imp] at h
    rw [List.foldl_cons]
    refine ih h.2 _ ?_
    split
    · exact h.1
    · exact he

/-- What a successful `Build` makes is a table over the alphabet of its vector. -/
theorem build_table_ok {lens : List Nat} {t : Table} (h : build lens = .ok t) (h15 : ∀ x ∈ lens, x ≤ Config.pMaxBits) :
    t.Ok lens.length := by
  unfold build at h
  split at h
  · cases h
  · rename_i hne
    split at h
    · cases h
      have hpos : 0 < lens.length := by
        cases lens with
        | nil => simp at hne
        | cons => simp
      have hb := slotEntry_bound hpos (fun w (hw : w ∈ codeWords lens) => codeWords_bound hw)
      refine ⟨maxLen_le h15, by simp [fillTable, slotList], by simp [fillTable, slotList], ?_, ?_⟩
      · intro x hx
        simp only [fillTable, slotList, List.map_map, List.mem_map, Function.comp] at hx
        obtain ⟨j, -, rfl⟩ := hx
        exact (hb j).2
      · intro x hx
        simp only [fillTable, slotList, List.map_map, List.mem_map, Function.comp] at hx
        obtain ⟨j, -, rfl⟩ := hx
        exact (hb j).1
    · cases h

/-- A table over an alphabet is one over any larger alphabet. -/
theorem Table.Ok.mono {n k : Nat} {t : Table} (h : t.Ok n) (hk : n ≤ k) : t.Ok k :=
  ⟨h.1, h.2.1, h.2.2.1, h.2.2.2.1, fun x hx => (h.2.2.2.2 x hx).trans_le hk⟩

theorem wf_writeClT {s : State} {t : Table} {ls : List Nat} (hw : Memory.wf s) (ht : t.Ok 19) :
    Memory.wf { s with loc := { s.loc with clT := t, lens := ls } } :=
  ⟨hw.1, hw.2.1, hw.2.2.1, hw.2.2.2.1, ht, hw.2.2.2.2.2⟩

theorem wf_writeBlockTables {s : State} {t u : Table} (hw : Memory.wf s) (ht : t.Ok 288) (hu : u.Ok 32) :
    Memory.wf { s with loc := { s.loc with litT := t, distT := u } } :=
  ⟨hw.1, hw.2.1, hw.2.2.1, hw.2.2.2.1, hw.2.2.2.2.1, ht, hu⟩

end Sys2Proof.Machine
end

