-- ==== Sys2Proof/Laws/PerInstr.lean ====
section
/-! SUPPORT. A statement about every instruction, one lemma per constructor. -/

namespace Sys2Proof.Laws

/-- The decoder reads the word of a well-formed instruction, at the instruction's place, as that instruction. -/
def RoundTrip.Statement (i : Instr) : Prop := i.wf = true → decode (slotOf i) (encode i) = .ok i

theorem RoundTrip.gzId : RoundTrip.Statement .gzId := fun _ => rfl

theorem RoundTrip.gzCm : RoundTrip.Statement .gzCm := fun _ => rfl

theorem RoundTrip.gzFlg : RoundTrip.Statement .gzFlg := fun _ => rfl

theorem RoundTrip.gzFixed : RoundTrip.Statement .gzFixed := fun _ => rfl

theorem RoundTrip.gzFextra : RoundTrip.Statement .gzFextra := fun _ => rfl

theorem RoundTrip.gzFname : RoundTrip.Statement .gzFname := fun _ => rfl

theorem RoundTrip.gzFcomment : RoundTrip.Statement .gzFcomment := fun _ => rfl

theorem RoundTrip.gzFhcrc : RoundTrip.Statement .gzFhcrc := fun _ => rfl

theorem RoundTrip.gzFtext : RoundTrip.Statement .gzFtext := fun _ => rfl

theorem RoundTrip.gzFlgRsv : RoundTrip.Statement .gzFlgRsv := fun _ => rfl

theorem RoundTrip.blkStored (bfinal : Bool) : RoundTrip.Statement (.blkStored bfinal) := fun _ => by cases bfinal <;> rfl

theorem RoundTrip.blkFixed (bfinal : Bool) : RoundTrip.Statement (.blkFixed bfinal) := fun _ => by cases bfinal <;> rfl

theorem RoundTrip.blkDynamic (bfinal : Bool) : RoundTrip.Statement (.blkDynamic bfinal) := fun _ => by cases bfinal <;> rfl

theorem RoundTrip.blkReserved (bfinal : Bool) : RoundTrip.Statement (.blkReserved bfinal) := fun _ => by cases bfinal <;> rfl

theorem RoundTrip.stBody : RoundTrip.Statement .stBody := fun _ => rfl

theorem RoundTrip.dhCounts : RoundTrip.Statement .dhCounts := fun _ => rfl

theorem RoundTrip.dhCll : RoundTrip.Statement .dhCll := fun _ => rfl

theorem RoundTrip.clLen (len : Nat) : RoundTrip.Statement (.clLen len) := fun h => by
  have h' : len ≤ 15 := of_decide_eq_true h
  show decodeCodeLength len = .ok (.clLen len)
  unfold decodeCodeLength; exact if_pos h'

theorem RoundTrip.clRep : RoundTrip.Statement .clRep := fun _ => rfl

theorem RoundTrip.clZero3 : RoundTrip.Statement .clZero3 := fun _ => rfl

theorem RoundTrip.clZero11 : RoundTrip.Statement .clZero11 := fun _ => rfl

theorem RoundTrip.lit (b : Byte) : RoundTrip.Statement (.lit b) := fun _ => by
  show decodeLiteralLength b.toNat = .ok (.lit b)
  have hb : b.toNat ≤ 255 := by have := b.isLt; omega
  rw [decodeLiteralLength, if_pos hb, BitVec.ofNat_toNat, BitVec.setWidth_eq]

theorem RoundTrip.eob : RoundTrip.Statement .eob := fun _ => rfl

theorem RoundTrip.len257 : RoundTrip.Statement .len257 := fun _ => rfl

theorem RoundTrip.len258 : RoundTrip.Statement .len258 := fun _ => rfl

theorem RoundTrip.len259 : RoundTrip.Statement .len259 := fun _ => rfl

theorem RoundTrip.len260 : RoundTrip.Statement .len260 := fun _ => rfl

theorem RoundTrip.len261 : RoundTrip.Statement .len261 := fun _ => rfl

theorem RoundTrip.len262 : RoundTrip.Statement .len262 := fun _ => rfl

theorem RoundTrip.len263 : RoundTrip.Statement .len263 := fun _ => rfl

theorem RoundTrip.len264 : RoundTrip.Statement .len264 := fun _ => rfl

theorem RoundTrip.len265 : RoundTrip.Statement .len265 := fun _ => rfl

theorem RoundTrip.len266 : RoundTrip.Statement .len266 := fun _ => rfl

theorem RoundTrip.len267 : RoundTrip.Statement .len267 := fun _ => rfl

theorem RoundTrip.len268 : RoundTrip.Statement .len268 := fun _ => rfl

theorem RoundTrip.len269 : RoundTrip.Statement .len269 := fun _ => rfl

theorem RoundTrip.len270 : RoundTrip.Statement .len270 := fun _ => rfl

theorem RoundTrip.len271 : RoundTrip.Statement .len271 := fun _ => rfl

theorem RoundTrip.len272 : RoundTrip.Statement .len272 := fun _ => rfl

theorem RoundTrip.len273 : RoundTrip.Statement .len273 := fun _ => rfl

theorem RoundTrip.len274 : RoundTrip.Statement .len274 := fun _ => rfl

theorem RoundTrip.len275 : RoundTrip.Statement .len275 := fun _ => rfl

theorem RoundTrip.len276 : RoundTrip.Statement .len276 := fun _ => rfl

theorem RoundTrip.len277 : RoundTrip.Statement .len277 := fun _ => rfl

theorem RoundTrip.len278 : RoundTrip.Statement .len278 := fun _ => rfl

theorem RoundTrip.len279 : RoundTrip.Statement .len279 := fun _ => rfl

theorem RoundTrip.len280 : RoundTrip.Statement .len280 := fun _ => rfl

theorem RoundTrip.len281 : RoundTrip.Statement .len281 := fun _ => rfl

theorem RoundTrip.len282 : RoundTrip.Statement .len282 := fun _ => rfl

theorem RoundTrip.len283 : RoundTrip.Statement .len283 := fun _ => rfl

theorem RoundTrip.len284 : RoundTrip.Statement .len284 := fun _ => rfl

theorem RoundTrip.len285 : RoundTrip.Statement .len285 := fun _ => rfl

theorem RoundTrip.illLen (sym : Nat) : RoundTrip.Statement (.illLen sym) := fun h => by
  have h' : 286 ≤ sym ∧ sym ≤ 287 := of_decide_eq_true h
  show decodeLiteralLength sym = .ok (.illLen sym)
  unfold decodeLiteralLength; rw [if_neg (by omega), if_neg (by omega), if_neg (by omega), if_pos h'.2]

theorem RoundTrip.dist0 : RoundTrip.Statement .dist0 := fun _ => rfl

theorem RoundTrip.dist1 : RoundTrip.Statement .dist1 := fun _ => rfl

theorem RoundTrip.dist2 : RoundTrip.Statement .dist2 := fun _ => rfl

theorem RoundTrip.dist3 : RoundTrip.Statement .dist3 := fun _ => rfl

theorem RoundTrip.dist4 : RoundTrip.Statement .dist4 := fun _ => rfl

theorem RoundTrip.dist5 : RoundTrip.Statement .dist5 := fun _ => rfl

theorem RoundTrip.dist6 : RoundTrip.Statement .dist6 := fun _ => rfl

theorem RoundTrip.dist7 : RoundTrip.Statement .dist7 := fun _ => rfl

theorem RoundTrip.dist8 : RoundTrip.Statement .dist8 := fun _ => rfl

theorem RoundTrip.dist9 : RoundTrip.Statement .dist9 := fun _ => rfl

theorem RoundTrip.dist10 : RoundTrip.Statement .dist10 := fun _ => rfl

theorem RoundTrip.dist11 : RoundTrip.Statement .dist11 := fun _ => rfl

theorem RoundTrip.dist12 : RoundTrip.Statement .dist12 := fun _ => rfl

theorem RoundTrip.dist13 : RoundTrip.Statement .dist13 := fun _ => rfl

theorem RoundTrip.dist14 : RoundTrip.Statement .dist14 := fun _ => rfl

theorem RoundTrip.dist15 : RoundTrip.Statement .dist15 := fun _ => rfl

theorem RoundTrip.dist16 : RoundTrip.Statement .dist16 := fun _ => rfl

theorem RoundTrip.dist17 : RoundTrip.Statement .dist17 := fun _ => rfl

theorem RoundTrip.dist18 : RoundTrip.Statement .dist18 := fun _ => rfl

theorem RoundTrip.dist19 : RoundTrip.Statement .dist19 := fun _ => rfl

theorem RoundTrip.dist20 : RoundTrip.Statement .dist20 := fun _ => rfl

theorem RoundTrip.dist21 : RoundTrip.Statement .dist21 := fun _ => rfl

theorem RoundTrip.dist22 : RoundTrip.Statement .dist22 := fun _ => rfl

theorem RoundTrip.dist23 : RoundTrip.Statement .dist23 := fun _ => rfl

theorem RoundTrip.dist24 : RoundTrip.Statement .dist24 := fun _ => rfl

theorem RoundTrip.dist25 : RoundTrip.Statement .dist25 := fun _ => rfl

theorem RoundTrip.dist26 : RoundTrip.Statement .dist26 := fun _ => rfl

theorem RoundTrip.dist27 : RoundTrip.Statement .dist27 := fun _ => rfl

theorem RoundTrip.dist28 : RoundTrip.Statement .dist28 := fun _ => rfl

theorem RoundTrip.dist29 : RoundTrip.Statement .dist29 := fun _ => rfl

theorem RoundTrip.illDist (sym : Nat) : RoundTrip.Statement (.illDist sym) := fun h => by
  have h' : 30 ≤ sym ∧ sym ≤ 31 := of_decide_eq_true h
  obtain rfl | rfl : sym = 30 ∨ sym = 31 := by omega
  · rfl
  · rfl

theorem RoundTrip.gzTrailer : RoundTrip.Statement .gzTrailer := fun _ => rfl

end Sys2Proof.Laws
end

