-- ==== Sys2Proof/Tests/Slice0.lean ====
section
/-! SUPPORT. The model's own tests, expected results from the spec's examples and tables, and a witness for the hypotheses of
each obligation. -/

namespace Sys2Proof.Tests

open Sys2Proof.Machine

/-! ### Helpers -/

/-- The core at a place of the stream, with these bytes next and an empty BitReader. -/
def standing (p : Slot) (bytes : List Byte) : State :=
  { State.reset with ibData := bytes, phase := slotPhase p, ctl := .run p }

/-- The same with some bits already in BR_BUF. -/
def withBits (buf : Acc) (len : Nat) (s : State) : State := { s with brBuf := buf, brLen := len }

/-- The next state of an outcome. -/
def nextOf : Host.Outcome State Fault Refusal → Option State
  | .next t => some t
  | .fault _ => none
  | .refused _ => none

/-- A test of the next state. -/
def check (o : Host.Outcome State Fault Refusal) (p : State → Bool) : Bool := (nextOf o).any p

/-! ### WellFormed refuses an ill-formed term for each check -/

theorem test_wf_refuses_code_length_16 : (Instr.clLen 16).wf = false := by decide
theorem test_wf_refuses_ill_len_285 : (Instr.illLen 285).wf = false := by decide
theorem test_wf_refuses_ill_len_288 : (Instr.illLen 288).wf = false := by decide
theorem test_wf_refuses_ill_dist_29 : (Instr.illDist 29).wf = false := by decide
theorem test_wf_refuses_ill_dist_32 : (Instr.illDist 32).wf = false := by decide
theorem test_wf_accepts_the_bounds :
    [Instr.clLen 0, .clLen 15, .illLen 286, .illLen 287, .illDist 30, .illDist 31].all Instr.wf = true := by decide

/-! ### Every constructor's decoding, from the spec's words (spec/opcode_table.json; 30_encoding.md R91 to R100) -/

/-- A word of a place decodes to an instruction. -/
def reads (p : Slot) (w : Nat) (i : Instr) : Bool :=
  match decode p w with
  | .ok j => j == i
  | .error _ => false

theorem test_decode_header_fields :
    reads .gzId 0x8B1F .gzId && reads .gzCm 0x08 .gzCm && reads .gzFlg 0 .gzFlg && reads .gzFixed 0 .gzFixed &&
    reads .gzFextra 0x04 .gzFextra && reads .gzFname 0x08 .gzFname && reads .gzFcomment 0x10 .gzFcomment &&
    reads .gzFhcrc 0x02 .gzFhcrc && reads .gzFtext 0x01 .gzFtext && reads .gzFlgRsv 0xE0 .gzFlgRsv &&
    reads .trailer 0 .gzTrailer = true := by decide

theorem test_decode_absent_header_field :
    decode .gzFname 0x17 = .error .flagClear ∧ decode .gzFhcrc 0xFD = .error .flagClear := by decide

theorem test_decode_block_headers :
    reads .bh 0b000 (.blkStored false) && reads .bh 0b001 (.blkStored true) && reads .bh 0b010 (.blkFixed false) &&
    reads .bh 0b011 (.blkFixed true) && reads .bh 0b100 (.blkDynamic false) && reads .bh 0b101 (.blkDynamic true) &&
    reads .bh 0b110 (.blkReserved false) && reads .bh 0b111 (.blkReserved true) &&
    reads .stBody 0 .stBody && reads .dhCounts 0 .dhCounts && reads .dhCll 0 .dhCll = true := by decide

theorem test_decode_code_length_symbols :
    reads .cl 0 (.clLen 0) && reads .cl 15 (.clLen 15) && reads .cl 0x10 .clRep && reads .cl 0x11 .clZero3 &&
    reads .cl 0x12 .clZero11 = true := by decide

theorem test_decode_code_length_19 : decode .cl 19 = .error .codeLengthSymbol := by decide

theorem test_decode_literals_and_eob :
    reads .ll 0 (.lit 0x00) && reads .ll 72 (.lit 0x48) && reads .ll 255 (.lit 0xFF) && reads .ll 0x100 .eob &&
    reads .ll 0x11E (.illLen 286) && reads .ll 0x11F (.illLen 287) = true := by decide

theorem test_decode_length_symbols :
    ([
      (0x101, .len257), (0x102, .len258), (0x103, .len259), (0x104, .len260), (0x105, .len261), (0x106, .len262),
      (0x107, .len263), (0x108, .len264), (0x109, .len265), (0x10A, .len266), (0x10B, .len267), (0x10C, .len268),
      (0x10D, .len269), (0x10E, .len270), (0x10F, .len271), (0x110, .len272), (0x111, .len273), (0x112, .len274),
      (0x113, .len275), (0x114, .len276), (0x115, .len277), (0x116, .len278), (0x117, .len279), (0x118, .len280),
      (0x119, .len281), (0x11A, .len282), (0x11B, .len283), (0x11C, .len284), (0x11D, .len285)]
      : List (Nat × Instr)).all (fun x => reads .ll x.1 x.2) = true := by decide

theorem test_decode_distance_symbols :
    ([
      (0x00, .dist0), (0x01, .dist1), (0x02, .dist2), (0x03, .dist3), (0x04, .dist4), (0x05, .dist5),
      (0x06, .dist6), (0x07, .dist7), (0x08, .dist8), (0x09, .dist9), (0x0A, .dist10), (0x0B, .dist11),
      (0x0C, .dist12), (0x0D, .dist13), (0x0E, .dist14), (0x0F, .dist15), (0x10, .dist16), (0x11, .dist17),
      (0x12, .dist18), (0x13, .dist19), (0x14, .dist20), (0x15, .dist21), (0x16, .dist22), (0x17, .dist23),
      (0x18, .dist24), (0x19, .dist25), (0x1A, .dist26), (0x1B, .dist27), (0x1C, .dist28), (0x1D, .dist29),
      (0x1E, .illDist 30), (0x1F, .illDist 31)]
      : List (Nat × Instr)).all (fun x => reads .d x.1 x.2) = true := by decide

/-- Fixed codes as R103 writes them, most significant bit first; `streamWord` has the first stream bit in bit 0. -/
theorem test_fixed_codes :
    streamWord (.lit 0) = (0b00001100, 8) ∧ streamWord (.lit 143) = (0b11111101, 8) ∧
    streamWord (.lit 144) = (0b000010011, 9) ∧ streamWord (.lit 255) = (0b111111111, 9) ∧
    streamWord .eob = (0b0000000, 7) ∧ streamWord .len279 = (0b1110100, 7) ∧
    streamWord .len280 = (0b00000011, 8) ∧ streamWord (.illLen 287) = (0b11100011, 8) ∧
    streamWord .dist1 = (0b10000, 5) ∧ streamWord (.illDist 31) = (0b11111, 5) := by decide

theorem test_table_words :
    decodeTableWord 16 0x8B1F = some .gzId ∧ decodeTableWord 8 0x10 = some .gzFcomment ∧
    decodeTableWord 16 0x100 = some .eob ∧ decodeTableWord 24 0x10 = some .clRep ∧
    decodeTableWord 32 0x1D = some .dist29 ∧ decodeTableWord 40 0 = none := by decide

/-! ### One step each, from the spec's examples -/

theorem test_gz_id : check (exec .gzId (standing .gzId [0x1F, 0x8B, 0x08])) (fun t => t.ctl == .run .gzCm && t.ibOff == 2) = true := by
  decide

/-- Vector E1 (44_gzip_framer.md R400). -/
theorem test_gz_id_bad : check (exec .gzId (standing .gzId [0x1F, 0x8C, 0x08]))
    (fun t => t.phase == .error && t.errCode == 2 && t.ibOff == 2) = true := by decide

/-- R401's example: CM = 7. -/
theorem test_gz_cm_bad : check (exec .gzCm (standing .gzCm [0x07]))
    (fun t => t.errCode == 3 && t.errDetail == 7 && t.ibOff == 1 && t.result == .error) = true := by decide

theorem test_gz_flg : check (exec .gzFlg (standing .gzFlg [0x1F])) (fun t => t.ctl == .run .gzFtext && t.loc.flg == 0x1F) = true := by
  decide

/-- FLG = 0x20 raises no error and reads nothing more (R409). -/
theorem test_gz_flg_rsv : check (exec .gzFlgRsv (standing .gzFlgRsv [0xAA]))
    (fun t => t.ctl == .run .gzFixed && t.ibOff == 0 && t.errCode == 0) = true := by decide

theorem test_gz_fixed : check (exec .gzFixed (standing .gzFixed [1, 2, 3, 4, 5, 6, 7]))
    (fun t => t.phase == .block && t.ctl == .run .bh && t.ibOff == 6 && t.snapOff == 6) = true := by decide

/-- R404's example: the bytes skip 6 bytes after XLEN. -/
theorem test_gz_fextra : check (exec .gzFextra (standing .gzFextra [0x06, 0x00, 0x41, 0x42, 0x02, 0x00, 0x01, 0x02, 0x99]))
    (fun t => t.ibOff == 8) = true := by decide

/-- R405's example: "a.map". -/
theorem test_gz_fname : check (exec .gzFname (standing .gzFname [0x61, 0x2E, 0x6D, 0x61, 0x70, 0x00, 0x33]))
    (fun t => t.ibOff == 6) = true := by decide

/-- R406's example: "hi". -/
theorem test_gz_fcomment : check (exec .gzFcomment (standing .gzFcomment [0x68, 0x69, 0x00, 0x33])) (fun t => t.ibOff == 3) = true := by
  decide

theorem test_gz_fhcrc : check (exec .gzFhcrc (standing .gzFhcrc [0x12, 0x34, 0x01])) (fun t => t.ibOff == 2 && t.phase == .block) = true := by
  decide

/-- A name that never ends, the stream open: the header is undone (R405; 46_host_interface.md R477). -/
theorem test_gz_fname_suspends : check (exec .gzFname (standing .gzFname [0x61, 0x62]))
    (fun t => t.result == .needMore && t.ctl == .idle && t.ibOff == 0 && t.phase == .header) = true := by decide

/-- R204's example after its header bits: `05 00 FA FF 68 65 6C 6C 6F` writes "hello". -/
theorem test_st_body : check (exec .stBody (withBits 0 5 (standing .stBody [0x05, 0x00, 0xFA, 0xFF, 0x68, 0x65, 0x6C, 0x6C, 0x6F])))
    (fun t => t.out == [0x68, 0x65, 0x6C, 0x6C, 0x6F] && t.ibOff == 9 && t.ctl == .run .bh && t.totalOut == 5) = true := by decide +kernel

/-- LEN_NLEN before any data byte (vector E2's fields, R204). -/
theorem test_st_body_len_nlen : check (exec .stBody (standing .stBody [0x05, 0x00, 0xFA, 0xFE]))
    (fun t => t.errCode == 4 && t.errDetail == 2 && t.ibOff == 4) = true := by decide

theorem test_blk_reserved : check (exec (.blkReserved true) (standing .bh [])) (fun t => t.errCode == 4 && t.errDetail == 1) = true := by
  decide

/-- R206's example: the fields 29, 0, 14 give 286, 1, 18. -/
theorem test_dh_counts : check (exec .dhCounts (standing .dhCounts [0x1D, 0x38]))
    (fun t => t.loc.hlit == 286 && t.loc.hdist == 1 && t.loc.hclen == 18 && t.ctl == .run .dhCll) = true := by decide

/-- R208's example: HCLEN = 4, lengths 1, 0, 0, 1: symbols 0 and 16 have one bit each. -/
theorem test_dh_cll : check (exec .dhCll
      { standing .dhCll [0x01, 0x02] with loc := { Locals.initial with hclen := 4, hlit := 257, hdist := 1 } })
    (fun t => t.loc.clT == { m := 1, min := 1, symbol := [0, 16], codeLen := [1, 1] } && t.ctl == .run .cl) = true := by decide

theorem test_cl_len : check (exec (.clLen 8) { standing .cl [] with loc := { Locals.initial with hlit := 257, hdist := 1 } })
    (fun t => t.loc.lens == [8] && t.ctl == .run .cl) = true := by decide

/-- R211's example: the last length 5 and e = 2 append five copies. -/
theorem test_cl_rep : check (exec .clRep
      { standing .cl [0x02] with loc := { Locals.initial with hlit := 257, hdist := 1, lens := [3, 5] } })
    (fun t => t.loc.lens == [3, 5, 5, 5, 5, 5, 5]) = true := by decide

/-- REPEAT_AT_ZERO comes before the extra bits are read (R211, R505). -/
theorem test_cl_rep_at_zero : check (exec .clRep (standing .cl [])) (fun t => t.errCode == 4 && t.errDetail == 3) = true := by decide

/-- R212's example: e = 7 appends 10 zeros. -/
theorem test_cl_zero3 : check (exec .clZero3 { standing .cl [0x07] with loc := { Locals.initial with hlit := 257, hdist := 1 } })
    (fun t => t.loc.lens == List.replicate 10 0) = true := by decide

/-- R213's example: e = 127 appends 138 zeros. -/
theorem test_cl_zero11 : check (exec .clZero11 { standing .cl [0x7F] with loc := { Locals.initial with hlit := 257, hdist := 1 } })
    (fun t => t.loc.lens == List.replicate 138 0) = true := by decide +kernel

/-- A run past HLIT + HDIST appends nothing (R214); one that ends exactly there is valid. -/
theorem test_cl_overrun : check (exec .clZero11 { standing .cl [0x7F] with loc := { Locals.initial with hlit := 137, hdist := 0 } })
    (fun t => t.errCode == 4 && t.errDetail == 5 && t.loc.lens == []) = true := by decide

theorem test_lit : check (exec (.lit 0x48) (standing .ll [])) (fun t => t.win == [0x48] && t.out == []) = true := by decide

/-- The commit of a final block (42_deflate_blocks.md R201; CRC32 of "a" from 45_crc32_validator.md R440). -/
theorem test_eob_final : check (exec .eob { standing .ll [] with win := [0x61], loc := { Locals.initial with bfinal := true } })
    (fun t => t.out == [0x61] && t.crcAcc == 0xE8B7BE43 && t.totalOut == 1 && t.final && t.phase == .trailer) = true := by decide

/-- The first and last length of every length symbol (30_encoding.md R104, column "lengths"). -/
theorem test_length_symbols :
    (lenInstrs.map fun i => (nextOf (exec i (standing .ll [0x00]))).map (fun t => t.loc.len)) =
      [3, 4, 5, 6, 7, 8, 9, 10, 11, 13, 15, 17, 19, 23, 27, 31, 35, 43, 51, 59, 67, 83, 99, 115, 131, 163, 195, 227, 258].map some ∧
    (lenInstrs.map fun i => (nextOf (exec i (standing .ll [0xFF]))).map (fun t => t.loc.len)) =
      [3, 4, 5, 6, 7, 8, 9, 10, 12, 14, 16, 18, 22, 26, 30, 34, 42, 50, 58, 66, 82, 98, 114, 130, 162, 194, 226, 258, 258].map some := by
  decide

/-- The first and last distance of every distance symbol (30_encoding.md R106, column "distances"). -/
theorem test_distance_values :
    ((List.range 30).map fun d => match distanceValue d (standing .d [0x00, 0x00]) with | .ready v _ => v | _ => 0) =
      [1, 2, 3, 4, 5, 7, 9, 13, 17, 25, 33, 49, 65, 97, 129, 193, 257, 385, 513, 769, 1025, 1537, 2049, 3073, 4097, 6145, 8193,
        12289, 16385, 24577] ∧
    ((List.range 30).map fun d => match distanceValue d (standing .d [0xFF, 0xFF]) with | .ready v _ => v | _ => 0) =
      [1, 2, 3, 4, 6, 8, 12, 16, 24, 32, 48, 64, 96, 128, 192, 256, 384, 512, 768, 1024, 1536, 2048, 3072, 4096, 6144, 8192, 12288,
        16384, 24576, 32768] := by decide

/-- R303's example: with WIN = "abc", a copy of 10 at distance 3 writes "abcabcabca". -/
theorem test_copy_10_3 : check (exec .dist2 { standing .d [] with win := [0x61, 0x62, 0x63], loc := { Locals.initial with len := 10 } })
    (fun t => t.win == [0x61, 0x62, 0x63, 0x61, 0x62, 0x63, 0x61, 0x62, 0x63, 0x61, 0x62, 0x63, 0x61] && t.ctl == .run .ll) = true := by
  decide

/-- DIST_TOO_FAR writes nothing (R303). -/
theorem test_dist_too_far : check (exec .dist0 { standing .d [] with loc := { Locals.initial with len := 3 } })
    (fun t => t.errCode == 4 && t.errDetail == 8 && t.win == []) = true := by decide

theorem test_ill_len : check (exec (.illLen 286) (standing .ll [])) (fun t => t.errCode == 5 && t.errDetail == 1) = true := by decide
theorem test_ill_dist : check (exec (.illDist 30) (standing .d [])) (fun t => t.errCode == 5 && t.errDetail == 2) = true := by decide

/-- R420's example, three padding bits dropped. -/
theorem test_trailer : check (exec .gzTrailer (withBits 5 3 (standing .trailer [0xD0, 0xC3, 0x4A, 0xEC, 0x0D, 0x00, 0x00, 0x00])))
    (fun t => t.trlCrc == 0xEC4AC3D0 && t.trlIsize == 13 && t.phase == .done && t.result == .done && t.brLen == 0) = true := by decide

/-- BadCrc comes before BadSize (45_crc32_validator.md R445). -/
theorem test_trailer_fatal : check (exec .gzTrailer
      { standing .trailer [0x01, 0x00, 0x00, 0x00, 0xFF, 0x00, 0x00, 0x00] with cfgVerify := .fatal })
    (fun t => t.errCode == 6 && t.trlIsize == 0xFF && t.phase == .error) = true := by decide

/-! ### Shared operations, from the spec's examples -/

/-- R140's example: the bytes `B5 01` give 1, 2, 22, 1. -/
theorem test_br_shift : (match (brShift 1 (standing .bh [0xB5, 0x01])).bind fun a s => (brShift 2 s).bind fun b s =>
      (brShift 5 s).bind fun c s => (brShift 8 s).bind fun d s => .ready [a, b, c, d] s with
    | .ready l _ => l | _ => []) = [1, 2, 22, 1] := by decide

/-- R141's example: `BrPeek(9)` of `F3 48` is 0x0F3 and leaves 16 bits. -/
theorem test_br_peek : (match brPeek 9 (standing .bh [0xF3, 0x48]) with | .ready v s => (v, s.brLen, s.ibOff) | _ => (0, 0, 0)) =
    (0xF3, 16, 2) := by decide

/-- R143's example, and C2's: 12 bits keep one whole byte. -/
theorem test_br_align : (brAlign (withBits 0x7F 7 (standing .bh []))).brLen = 0 ∧
    ((brAlign (withBits 0xABC 12 (standing .bh []))).brLen, (brAlign (withBits 0xABC 12 (standing .bh []))).brBuf) = (8, 0xAB) := by decide

/-- R179: one code of one bit. -/
theorem test_build_single : build [0, 0, 1] = .ok { m := 1, min := 1, symbol := [2, 0], codeLen := [1, 0] } := by rfl

/-- The order of Build's checks (41_huffman_table.md R177). -/
theorem test_build_errors : build [0, 0] = .error .emptyCode ∧ build [1, 1, 1] = .error .oversubscribed := ⟨by rfl, by rfl⟩

/-- An append after the end is ignored (40_input_bitreader.md R131). -/
theorem test_append_after_close : (ibAppend [1] (ibCloseEnd State.reset)).ibData = [] := by decide

/-! ### Steps -/

/-- R176's example: after the header bits of `F3`, the code of 'H' is read from `F3 48`. -/
theorem test_step_fixed_literal : check (step { withBits 0x1E 5 (standing .ll [0x48]) with loc := { Locals.initial with btype := 1 } })
    (fun t => t.win == [0x48] && t.brLen == 5 && t.ibOff == 1) = true := by decide +kernel

theorem test_step_append_and_run : check (step { State.reset with host := [.run], ibData := [0x1F] })
    (fun t => t.ctl == .run .gzId && t.host == []) = true := by decide

theorem test_with_fetch_word_gz_id : check (step (State.reset.withFetchWord 16 0x8B1F)) (fun t => t.ctl == .run .gzCm) = true := by decide
theorem test_with_fetch_word_eob : check (step (State.reset.withFetchWord 16 0x100)) (fun t => t.ctl == .run .bh) = true := by decide +kernel
theorem test_with_fetch_word_cl_rep : check (step (State.reset.withFetchWord 24 0x10))
    (fun t => t.errCode == 4 && t.errDetail == 3) = true := by decide

/-! ### Witnesses: states and operands that meet the hypotheses of an obligation, clause by clause -/

/-- The host's next transaction on the reset state. -/
def asked (q : HostReq) : State := { State.reset with host := [q] }

/-- A stopped state in phase ERROR that the status invariant allows. -/
def failed (q : HostReq) : State := { asked q with phase := .error, errCode := 1, result := .error }

/-- A stopped state in phase DONE. -/
def finished (q : HostReq) : State := { asked q with phase := .done, final := true, result := .done }

/-- A state with this unit-local table for code-length symbols. -/
def withClT (t : Table) (s : State) : State := { s with loc := { s.loc with clT := t } }

/-- A table of one 1-bit code, for symbol 17. -/
def oneCode : Table := { m := 1, min := 1, symbol := [17, 0], codeLen := [1, 0] }

theorem struct_asked (q : HostReq) : StructOk (asked q) := 
  ⟨wf_reset, by show Locals.initial.Ok; decide, Or.inr rfl, cursorOk_reset⟩

theorem struct_standing_gzId (l : List Byte) : StructOk (standing .gzId l) :=
  ⟨⟨Nat.zero_le _, Nat.zero_le _, by show BitsOk 0 0; decide, by show BitsOk 0 0; decide, tableOk_empty (by omega),
    tableOk_empty (by omega), tableOk_empty (by omega)⟩, by show Locals.initial.Ok; decide,
    ⟨rfl, trivial, fun _ => rfl⟩, Nat.zero_le _, Nat.zero_le _, fun _ => Nat.zero_le _⟩

theorem witness_DecodeEncodeAgree :
    (Instr.clLen 15).wf = true ∧ (Instr.illLen 287).wf = true ∧ (Instr.illDist 30).wf = true ∧
    decode .cl 18 = .ok .clZero11 ∧ decode .ll 255 = .ok (.lit 255) ∧ decode .d 31 = .ok (.illDist 31) ∧
    decode .bh 7 = .ok (.blkReserved true) ∧
    [decode .gzFtext 0x01, decode .gzFhcrc 0x02, decode .gzFextra 0x04, decode .gzFname 0x08, decode .gzFcomment 0x10] =
      [.ok .gzFtext, .ok .gzFhcrc, .ok .gzFextra, .ok .gzFname, .ok .gzFcomment] ∧
    [decode .gzFtext 0xFE, decode .gzFhcrc 0xFD, decode .gzFextra 0xFB, decode .gzFname 0xF7, decode .gzFcomment 0xEF].all
      (fun r => match r with | .error _ => true | .ok _ => false) = true := by decide

/-- A state whose next bits are a fixed code, in a fixed block. -/
def fixedAt (p : Slot) (bytes : List Byte) : State :=
  { standing p bytes with loc := { Locals.initial with btype := 1 } }

theorem witness_FixedCodesAreFetched :
    ((Instr.blkReserved true).wf = true ∧ BitsOk (standing .bh [7]).brBuf (standing .bh [7]).brLen ∧
      pending (standing .bh [7]) % 2 ^ (streamWord (.blkReserved true)).2 = (streamWord (.blkReserved true)).1 ∧
      3 ≤ availBits (standing .bh [7])) ∧
    ((Instr.illLen 287).wf = true ∧ BitsOk (fixedAt .ll [0xE3, 0]).brBuf (fixedAt .ll [0xE3, 0]).brLen ∧
      pending (fixedAt .ll [0xE3, 0]) % 2 ^ (streamWord (.illLen 287)).2 = (streamWord (.illLen 287)).1 ∧
      (fixedAt .ll [0xE3, 0]).loc.btype = 1 ∧ 9 ≤ availBits (fixedAt .ll [0xE3, 0])) ∧
    ((Instr.illDist 31).wf = true ∧ BitsOk (fixedAt .d [0x1F]).brBuf (fixedAt .d [0x1F]).brLen ∧
      pending (fixedAt .d [0x1F]) % 2 ^ (streamWord (.illDist 31)).2 = (streamWord (.illDist 31)).1 ∧
      5 ≤ availBits (fixedAt .d [0x1F])) := by decide

theorem witness_TableFillIsTheSpecLoop :
    (∀ x ∈ [2, 1, 0, 2], x ≤ Config.pMaxBits) ∧ ∃ t, build [2, 1, 0, 2] = .ok t := ⟨by decide, _, rfl⟩

/-- In the code 10, 0, none, 11 symbol 3 has the code 11. -/
theorem witness_CanonicalCodesAreDecoded :
    (∀ x ∈ [2, 1, 0, 2], x ≤ Config.pMaxBits) ∧ (∃ t, build [2, 1, 0, 2] = .ok t ∧ t.m ≤ availBits (standing .ll [3])) ∧
    0 < [2, 1, 0, 2].getD 3 0 ∧ BitsOk (standing .ll [3]).brBuf (standing .ll [3]).brLen ∧
    pending (standing .ll [3]) % 2 ^ [2, 1, 0, 2].getD 3 0 =
      reverseBits ((canonicalCodes [2, 1, 0, 2]).getD 3 0) ([2, 1, 0, 2].getD 3 0) :=
  ⟨by decide, ⟨_, rfl, by decide⟩, by decide, by decide, by decide⟩

theorem witness_SingleCodeTable : [0, 0, 1].getD 2 0 = 1 ∧ ∀ j, j ≠ 2 → [0, 0, 1].getD j 0 = 0 := by
  refine ⟨rfl, fun j hj => ?_⟩
  match j with
  | 0 => rfl
  | 1 => rfl
  | 2 => exact absurd rfl hj
  | _ + 3 => rfl

theorem witness_StepRunsTheDecodedInstruction :
    ((standing .gzId []).ctl = .run .gzId ∧ tableAt .gzId (standing .gzId []) = none ∧
      decode .gzId (standing .gzId []).loc.flg.toNat = .ok .gzId) ∧
    ((standing .bh [7]).ctl = .run .bh ∧ BitsOk (standing .bh [7]).brBuf (standing .bh [7]).brLen ∧
      3 ≤ availBits (standing .bh [7]) ∧ decode .bh (pending (standing .bh [7]) % 8) = .ok (.blkReserved true)) ∧
    (tableAt .cl (withClT oneCode (standing .cl [0])) = some oneCode ∧ oneCode.m ≤ 16 ∧
      oneCode.m ≤ availBits (withClT oneCode (standing .cl [0])) ∧
      oneCode.codeLen.getD (slotIndex oneCode (withClT oneCode (standing .cl [0]))) 0 ≠ 0 ∧
      decode .cl (oneCode.symbol.getD (slotIndex oneCode (withClT oneCode (standing .cl [0]))) 0) = .ok .clZero3) ∧
    (State.reset.ctl = .idle ∧ State.reset.host = []) := by decide

theorem witness_StepStopsWhereNoSymbolIsRead :
    (Memory.wf (withBits 3 2 (standing .bh [])) ∧ availBits (withBits 3 2 (standing .bh [])) < 3) ∧
    (Memory.wf (withClT oneCode (standing .cl [])) ∧ availBits (withClT oneCode (standing .cl [])) < oneCode.m) ∧
    (Memory.wf (withClT oneCode (standing .cl [1])) ∧ oneCode.m ≤ availBits (withClT oneCode (standing .cl [1])) ∧
      oneCode.codeLen.getD (slotIndex oneCode (withClT oneCode (standing .cl [1]))) 0 = 0) :=
  ⟨⟨by decide, by decide⟩, ⟨by decide, by decide⟩, ⟨by decide, by decide, by decide⟩⟩

theorem witness_ResetValues :
    ((asked .reset).ctl = .idle ∧ (asked .reset).host = .reset :: []) ∧
    ((finished .run).phase = .done ∧ ∃ t, step (finished .run) = .next t) ∧
    ((failed .close).phase = .error ∧ ∃ t, step (failed .close) = .next t) := ⟨⟨rfl, rfl⟩, ⟨rfl, _, rfl⟩, ⟨rfl, _, rfl⟩⟩

/-- The invariants' step statements: a stopped state and a running one. -/
theorem witness_StructureIsKept :
    (StructOk (asked .run) ∧ ∃ t, step (asked .run) = .next t) ∧
    (StructOk (standing .gzId [0x1F, 0x8B]) ∧ ∃ t, step (standing .gzId [0x1F, 0x8B]) = .next t) :=
  ⟨⟨struct_asked _, _, rfl⟩, ⟨struct_standing_gzId _, _, rfl⟩⟩

theorem witness_AccumulatorsAreKept :
    AccumOk (asked .run) ∧ AccumOk { standing .ll [] with out := [0x61], crcAcc := 0xE8B7BE43, totalOut := 1 } ∧
    ∃ t, step (asked .run) = .next t := ⟨by decide, by decide, _, rfl⟩

theorem witness_WindowIsKept :
    WindowOk (asked .run) ∧ WindowOk { standing .stBody [] with win := [1, 2], out := [1], snapWlen := 1 } ∧
    WindowOk { failed .run with win := [1, 2], out := [1] } ∧ ∃ t, step (asked .run) = .next t :=
  ⟨rfl, ⟨rfl, by decide, fun h => absurd rfl h⟩, ⟨[2], rfl⟩, _, rfl⟩

theorem witness_StatusIsKept :
    StatusOk (asked .run) ∧ StatusOk (failed .run) ∧ StatusOk (finished .run) ∧ StructOk (asked .run) ∧
    ∃ t, step (asked .run) = .next t := ⟨by decide, by decide, by decide, struct_asked _, _, rfl⟩

theorem witness_TrailerRegistersAreKept :
    TrailerOk { finished .run with trlCrc := 5, warnCrc := true } ∧ TrailerOk { failed .run with errCode := 6, trlCrc := 5 } ∧
    (StructOk (asked .run) ∧ StatusOk (asked .run) ∧ TrailerOk (asked .run) ∧ ∃ t, step (asked .run) = .next t) ∧
    ∃ s t, (∀ ts, s.ctl = .idle → s.host ≠ .reset :: ts) ∧ step s = .next t ∧ ¬ trailerKept s t ∧ t.warnCrc ≠ s.warnCrc :=
  ⟨by decide, by decide, ⟨struct_asked _, by decide, by decide, _, rfl⟩,
    { standing .trailer [1, 0, 0, 0, 0, 0, 0, 0] with cfgVerify := .warn }, _, (fun _ h => by cases h), rfl, by decide, by decide⟩

theorem witness_StepNeverStops : StructOk (asked .run) := struct_asked _

theorem witness_InvariantStatesAreSafe : Safety.Inv (asked .run) := ⟨struct_asked _, by decide, rfl, by decide⟩

theorem witness_RunTerminates : StructOk (standing .gzId [0x1F, 0x8B]) ∧ StructOk (asked .run) ∧ (asked .run).ctl = .idle :=
  ⟨struct_standing_gzId _, struct_asked _, rfl⟩

theorem witness_InputTransactions :
    [asked (.append [1]), asked .close, asked (.config 0), asked (.config 3)].all (fun s => s.ctl == .idle) = true ∧
    (asked (.append [1])).host = .append [1] :: [] ∧ (asked (.config 3)).host = .config 3 :: [] := by decide

theorem witness_HostReads :
    (asked (.read 7)).ctl = .idle ∧ (asked (.read 7)).host = .read 7 :: [] ∧ (asked (.out 0)).host = .out 0 :: [] ∧ 7 < 8 := by
  decide

theorem witness_RunTakesASnapshot :
    ((asked .run).ctl = .idle ∧ (asked .run).host = .run :: [] ∧ (asked .run).phase = .header) ∧
    ({ asked .run with phase := .trailer } : State).phase = .trailer ∧ (finished .run).phase = .done := by decide

theorem witness_ErrorIsSticky :
    [HostReq.run, .append [1], .close, .config 2, .reset, .out 0].all (fun q =>
      decide (StatusOk (failed q)) && (failed q).ctl == .idle && (failed q).phase == .error && (failed q).host == [q]) = true := by
  decide

theorem witness_SuspensionRestoresTheUnit :
    (standing .gzId []).snapWlen ≤ (standing .gzId []).win.length ∧
    ∃ t, step (standing .gzId []) = .next t ∧ t.ctl = .idle ∧ t.result = .needMore := ⟨by decide, _, rfl, rfl, rfl⟩

theorem witness_ClosedStreamsTruncateOpenOnesSuspend :
    (∃ t, step { standing .gzId [] with ibEnd := true } = .next t ∧ t.ctl = .idle) ∧
    (∃ t, step { standing .gzId [] with errCode := 1 } = .next t ∧ t.errCode = 1) := ⟨⟨_, rfl, rfl⟩, ⟨_, rfl, rfl⟩⟩

theorem witness_SuspensionIsIdempotent :
    StructOk State.reset ∧ WindowOk State.reset ∧ State.reset.ctl = .idle ∧ (runAtomic State.reset).result = .needMore :=
  ⟨struct_asked .run, rfl, rfl, rfl⟩

theorem witness_StepIgnoresLaterInput :
    (StructOk (standing .gzId [0x1F, 0x8B]) ∧ ∃ t, step (standing .gzId [0x1F, 0x8B]) = .next t ∧ t.ctl ≠ .idle) ∧
    (StructOk (standing .gzId [0x1F, 0x8C]) ∧
      ∃ t, step (standing .gzId [0x1F, 0x8C]) = .next t ∧ t.phase = .error ∧ t.errCode ≠ 1) :=
  ⟨⟨struct_standing_gzId _, _, rfl, by decide⟩, ⟨struct_standing_gzId _, _, rfl, rfl, by decide⟩⟩

theorem witness_SignatureField :
    unread (standing .gzId [1, 2]) = [1, 2] ∧ avail (standing .gzId []) < 2 ∧ avail (standing .gzId [1]) < 2 := by decide

theorem witness_MethodAndFlagFields : unread (standing .gzCm [8]) = [8] ∧ avail (standing .gzCm []) = 0 := by decide

theorem witness_DiscardedHeaderBytes :
    6 ≤ avail (standing .gzFixed [1, 2, 3, 4, 5, 6]) ∧ avail (standing .gzFixed [1, 2, 3, 4, 5]) < 6 ∧
    2 ≤ avail (standing .gzFhcrc [1, 2]) ∧ avail (standing .gzFhcrc [1]) < 2 := by decide

theorem witness_ExtraField :
    (unread (standing .gzFextra [1, 0, 7]) = [1, 0, 7] ∧ (1 : Byte).toNat + 256 * (0 : Byte).toNat ≤ [(7 : Byte)].length) ∧
    (unread (standing .gzFextra [2, 0, 7]) = [2, 0, 7] ∧ [(7 : Byte)].length < (2 : Byte).toNat + 256 * (0 : Byte).toNat) ∧
    avail (standing .gzFextra [1]) < 2 := by decide

theorem witness_NulTerminatedFields :
    unread (standing .gzFname [0, 9]) = [] ++ 0 :: [9] ∧ unread (standing .gzFname [5, 0]) = [5] ++ 0 :: [] ∧ (0 : Byte) ∉ [(5 : Byte)] ∧
    (0 : Byte) ∉ unread (standing .gzFname [5, 6]) := by decide

/-- A stored body whose LEN and NLEN agree, with LEN = 0 and LEN = 1, and one where they do not. -/
theorem witness_StoredBody :
    (∀ n ∈ [[0x00, 0x00, 0xFF, 0xFF], [0x01, 0x00, 0xFE, 0xFF, 0x77]], ∃ s, s = standing .stBody n ∧
      BitsOk s.brBuf s.brLen ∧ 32 ≤ availBits (brAlign s) ∧
      BitVec.ofNat 16 (pending (brAlign s) % 2 ^ 16) = ~~~ BitVec.ofNat 16 (pending (brAlign s) / 2 ^ 16 % 2 ^ 16) ∧
      8 * (pending (brAlign s) % 2 ^ 16) ≤ availBits (drawn 16 (drawn 16 (brAlign s)))) ∧
    (32 ≤ availBits (brAlign (standing .stBody [5, 0, 0xFA, 0xFE])) ∧
      BitVec.ofNat 16 (pending (brAlign (standing .stBody [5, 0, 0xFA, 0xFE])) % 2 ^ 16) ≠
        ~~~ BitVec.ofNat 16 (pending (brAlign (standing .stBody [5, 0, 0xFA, 0xFE])) / 2 ^ 16 % 2 ^ 16)) := by
  refine ⟨fun n hn => ?_, by decide⟩
  simp only [List.mem_cons, List.not_mem_nil, or_false] at hn
  rcases hn with rfl | rfl
  · exact ⟨_, rfl, by decide⟩
  · exact ⟨_, rfl, by decide⟩

theorem witness_StoredBodyRunsShort :
    (Memory.wf (standing .stBody [1, 0, 0xFE]) ∧ availBits (brAlign (standing .stBody [1, 0, 0xFE])) < 32) ∧
    (Memory.wf (standing .stBody [1, 0, 0xFE, 0xFF]) ∧
      BitVec.ofNat 16 (pending (brAlign (standing .stBody [1, 0, 0xFE, 0xFF]))) =
        ~~~ BitVec.ofNat 16 (pending (brAlign (standing .stBody [1, 0, 0xFE, 0xFF])) / 2 ^ 16) ∧
      availBits (brAlign (standing .stBody [1, 0, 0xFE, 0xFF])) <
        32 + 8 * (pending (brAlign (standing .stBody [1, 0, 0xFE, 0xFF])) % 2 ^ 16)) := by decide

theorem witness_DynamicHeaderCounts :
    BitsOk (withBits 0 14 (standing .dhCounts [])).brBuf (withBits 0 14 (standing .dhCounts [])).brLen ∧
    14 ≤ availBits (withBits 0 14 (standing .dhCounts [])) ∧
    Memory.wf (withBits 0 13 (standing .dhCounts [])) ∧ availBits (withBits 0 13 (standing .dhCounts [])) < 14 := by decide

/-- The state of R208's example, one whose lengths are all 0 (HCLEN = 19), and one a bit short (HCLEN = 4). -/
theorem witness_CodeLengthCode :
    (∃ s : State, s.loc.hclen = 4 ∧ BitsOk s.brBuf s.brLen ∧ 3 * s.loc.hclen ≤ availBits s ∧
      ∃ t, build (cllVector s.loc.hclen (pending s)) = .ok t) ∧
    (∃ s : State, s.loc.hclen = 19 ∧ BitsOk s.brBuf s.brLen ∧ 3 * s.loc.hclen ≤ availBits s ∧
      build (cllVector s.loc.hclen (pending s)) = .error .emptyCode) ∧
    (∃ s : State, s.loc.hclen = 4 ∧ Memory.wf s ∧ availBits s < 3 * s.loc.hclen) :=
  ⟨⟨{ standing .dhCll [0x01, 0x02] with loc := { Locals.initial with hclen := 4 } }, rfl, by decide, by decide, _, rfl⟩,
    ⟨{ standing .dhCll (List.replicate 8 0) with loc := { Locals.initial with hclen := 19 } }, rfl, by decide, by decide, rfl⟩,
    ⟨{ withBits 0 11 (standing .dhCll []) with loc := { Locals.initial with hclen := 4 } }, rfl, by decide, by decide⟩⟩

theorem witness_CodeLengthSymbol : 0 ≤ 15 ∧ 15 ≤ 15 := by decide

/-- Repeats: too few extra bits, a run that ends at HLIT + HDIST, and one a length longer. -/
theorem witness_RepeatSymbols :
    (standing .cl []).loc.lens = [] ∧
    availBits (withBits 1 1 (standing .cl [])) < 2 ∧ availBits (withBits 0 2 (standing .cl [])) < 3 ∧
    availBits (withBits 0 6 (standing .cl [])) < 7 ∧
    BitsOk (withBits 1 1 (standing .cl [])).brBuf (withBits 1 1 (standing .cl [])).brLen ∧
    ([1] : List Nat) ≠ [] ∧
    (∃ s : State, BitsOk s.brBuf s.brLen ∧ s.loc.lens ≠ [] ∧ 2 ≤ availBits s ∧
      s.loc.lens.length + (3 + pending s % 2 ^ 2) = s.loc.hlit + s.loc.hdist) ∧
    (∃ s : State, BitsOk s.brBuf s.brLen ∧ s.loc.lens ≠ [] ∧ 2 ≤ availBits s ∧
      s.loc.hlit + s.loc.hdist + 1 = s.loc.lens.length + (3 + pending s % 2 ^ 2)) ∧
    (∃ s : State, BitsOk s.brBuf s.brLen ∧ 7 ≤ availBits s ∧
      s.loc.lens.length + (11 + pending s % 2 ^ 7) = s.loc.hlit + s.loc.hdist) :=
  ⟨rfl, by decide, by decide, by decide, by decide, by decide,
    ⟨{ standing .cl [3] with loc := { Locals.initial with lens := [1], hlit := 6, hdist := 1 } }, by decide⟩,
    ⟨{ standing .cl [3] with loc := { Locals.initial with lens := [1], hlit := 5, hdist := 1 } }, by decide⟩,
    ⟨{ standing .cl [0x7F] with loc := { Locals.initial with hlit := 137, hdist := 1 } }, by decide⟩⟩

/-- The four cases: one length missing; LIT_T's error; DIST_T's error; both built. -/
theorem witness_CodeLengthsEnd :
    ([1].length < 1 + 1 ∧ 1 + 1 ≤ [1, 0].length) ∧
    build ([0, 1].take 1) = .error .emptyCode ∧
    ((∃ t, build ([1, 0].take 1) = .ok t) ∧ build (([1, 0].drop 1).take 1) = .error .emptyCode) ∧
    ((∃ t, build ([1, 1].take 1) = .ok t) ∧ ∃ t, build (([1, 1].drop 1).take 1) = .ok t) :=
  ⟨by decide, rfl, ⟨⟨_, rfl⟩, rfl⟩, ⟨⟨_, rfl⟩, ⟨_, rfl⟩⟩⟩

/-- A block that has decoded nothing yet, and one with a byte in the window. -/
theorem witness_LiteralIsWritten :
    (standing .ll []).snapWlen ≤ (standing .ll []).win.length ∧
    ({ standing .ll [] with win := [1], snapWlen := 1 } : State).snapWlen ≤
      ({ standing .ll [] with win := [1], snapWlen := 1 } : State).win.length := by decide

theorem witness_LengthSymbols :
    lenInstrs[0]? = some .len257 ∧ lenInstrs[28]? = some .len285 ∧ lenInstrs[27]? = some .len284 ∧
    lextra.getD 28 0 ≤ availBits (standing .ll []) ∧
    lextra.getD 27 0 ≤ availBits (withBits 31 5 (standing .ll [])) ∧
    availBits (withBits 15 4 (standing .ll [])) < lextra.getD 27 0 ∧
    BitsOk (withBits 31 5 (standing .ll [])).brBuf (withBits 31 5 (standing .ll [])).brLen := by decide

/-- The distance equal to the window's length, the one above it, and too few extra bits. -/
theorem witness_BackReferenceCopies :
    distInstrs[0]? = some .dist0 ∧ distInstrs[29]? = some .dist29 ∧
    dbase.getD 0 0 + pending (standing .d []) % 2 ^ dextra.getD 0 0 ≤ ({ standing .d [] with win := [1] } : State).win.length ∧
    (standing .d []).win.length < dbase.getD 0 0 + pending (standing .d []) % 2 ^ dextra.getD 0 0 ∧
    dextra.getD 29 0 ≤ availBits (withBits 0 13 (standing .d [])) ∧ availBits (withBits 0 12 (standing .d [])) < dextra.getD 29 0 ∧
    BitsOk (withBits 0 13 (standing .d [])).brBuf (withBits 0 13 (standing .d [])).brLen := by decide

theorem witness_LengthAndDistanceRanges :
    (28 < 29 ∧ 0 < 2 ^ lextra.getD 28 0) ∧ (29 < 30 ∧ 8191 < 2 ^ dextra.getD 29 0) ∧
    (3 ≤ 258 ∧ 258 ≤ Config.pLenMax) ∧ (1 ≤ 32768 ∧ 32768 ≤ Config.pWindow) := by decide

/-- A trailer that is all there, in each mode, with words that match the accumulators of an empty output and words that do
not; and one a byte short. -/
theorem witness_TrailerUnit :
    (∀ m ∈ [VerifyMode.off, .warn, .fatal], ∃ s, s = { standing .trailer (List.replicate 8 0) with cfgVerify := m } ∧ Memory.wf s ∧
      s.cfgVerify = m ∧ 64 ≤ availBits (brAlign s) ∧
      BitVec.ofNat 32 (pending (brAlign s) % 2 ^ 32) = s.crcAcc ∧ BitVec.ofNat 32 (pending (brAlign s) / 2 ^ 32 % 2 ^ 32) = s.totalOut) ∧
    BitVec.ofNat 32 (pending (brAlign (standing .trailer [1, 0, 0, 0, 0, 0, 0, 0])) % 2 ^ 32) ≠ State.reset.crcAcc ∧
    BitVec.ofNat 32 (pending (brAlign (standing .trailer [0, 0, 0, 0, 0, 0, 0, 1])) / 2 ^ 32 % 2 ^ 32) ≠ State.reset.totalOut ∧
    (Memory.wf (standing .trailer (List.replicate 7 0)) ∧ availBits (brAlign (standing .trailer (List.replicate 7 0))) < 64) := by
  refine ⟨fun m hm => ?_, by decide⟩
  simp only [List.mem_cons, List.not_mem_nil, or_false] at hm
  rcases hm with rfl | rfl | rfl
  · exact ⟨_, rfl, by decide⟩
  · exact ⟨_, rfl, by decide⟩
  · exact ⟨_, rfl, by decide⟩

theorem witness_HeaderFieldFrame :
    slotPhase (slotOf .gzFixed) = .header ∧ (standing .gzFixed []).snapWlen = (standing .gzFixed []).win.length ∧
    (∃ t, exec .gzFixed (standing .gzFixed [1, 2, 3, 4, 5, 6]) = .next t ∧ t.phase = .block) ∧
    (∃ t, exec .gzCm (standing .gzCm [8]) = .next t ∧ t.phase ≠ .block ∧ notSuspended t) :=
  ⟨rfl, rfl, ⟨_, rfl, rfl⟩, ⟨_, rfl, by decide, by decide⟩⟩

theorem witness_SymbolFrame :
    slotPhase (slotOf .len257) = .block ∧ Instr.len257 ≠ .eob ∧ Instr.len257 ≠ .stBody ∧ (∀ b, Instr.len257 ≠ .lit b) ∧
    Instr.len257 ∉ distInstrs ∧ ∃ t, exec .len257 (standing .ll []) = .next t ∧ notSuspended t :=
  ⟨rfl, by decide, by decide, (fun b h => by cases h), by decide, _, rfl, by decide⟩

theorem witness_BlockEndFrame :
    (∃ t, exec .eob (standing .ll []) = .next t ∧ t.phase ≠ .error ∧ t.ctl ≠ .idle) ∧
    (∃ t, exec .stBody (standing .stBody []) = .next t ∧ t.ctl = .idle) := ⟨⟨_, rfl, by decide, by decide⟩, ⟨_, rfl, rfl⟩⟩

theorem witness_TrailerFrame :
    (∃ t, exec .gzTrailer (standing .trailer []) = .next t ∧ t.result = .needMore) ∧
    (∃ t, exec .gzTrailer { standing .trailer [] with ibEnd := true } = .next t ∧ notSuspended t ∧ t.errCode = 1 ∧ t.phase = .error) ∧
    (∃ t, exec .gzTrailer (standing .trailer (List.replicate 8 0)) = .next t ∧ t.phase ≠ .error) :=
  ⟨⟨_, rfl, rfl⟩, ⟨_, rfl, by decide, rfl, rfl⟩, ⟨_, rfl, by decide⟩⟩

theorem witness_InputIsAppendOnly :
    (∃ t, step (standing .gzId [0x1F, 0x8B]) = .next t) ∧
    (∃ t, step (asked (.append [1])) = .next t ∧ (asked (.append [1])).ctl = .idle ∧ ∀ ts, (asked (.append [1])).host ≠ .reset :: ts) ∧
    ({ asked (.append [1]) with ibEnd := true } : State).ibEnd = true :=
  ⟨⟨_, rfl⟩, ⟨_, rfl, rfl, fun ts h => by cases h⟩, rfl⟩

/-- A commit through a step: the one-bit code of EOB in a dynamic block, with one byte decoded. -/
theorem witness_OutputIsAppendOnly : ∃ s t, s.ctl = .run .ll ∧ step s = .next t ∧ ¬ committedKept s t :=
  ⟨{ standing .ll [0] with
      win := [0x61]
      loc := { Locals.initial with litT := { m := 1, min := 1, symbol := [256, 0], codeLen := [1, 0] } } },
    _, rfl, rfl, by decide⟩

theorem witness_PhaseTransitions :
    StructOk (standing .gzId [0x1F, 0x8C]) ∧
    ∃ t, step (standing .gzId [0x1F, 0x8C]) = .next t ∧ t.phase ≠ (standing .gzId [0x1F, 0x8C]).phase :=
  ⟨struct_standing_gzId _, _, rfl, by decide⟩

/-- A step that goes on, a place of a table, and a step that suspends. -/
theorem witness_CursorMovesForward :
    (StructOk (standing .gzId [0x1F, 0x8B]) ∧
      ∃ t, step (standing .gzId [0x1F, 0x8B]) = .next t ∧ notSuspended t ∧ t.phase ≠ .error) ∧
    tableAt .cl (withClT oneCode (standing .cl [0])) ≠ none ∧
    (StructOk (standing .gzId [0x1F]) ∧ ∃ t, step (standing .gzId [0x1F]) = .next t ∧ ¬ notSuspended t) :=
  ⟨⟨struct_standing_gzId _, _, rfl, by decide, by decide⟩, by decide, struct_standing_gzId _, _, rfl, by decide⟩

end Sys2Proof.Tests
end

section
/-! ## Inside a unit: what an instruction may change before it ends, and that each read keeps the structure -/

namespace Sys2Proof.Machine

/-! ### Outcomes of a read, by what holds of them -/

section
variable {α β : Type} {E : State → Prop} {P Q : α → State → Prop}

/-- What holds of a read's outcome: `Q` of the value and the state of `ready`, `E` of the state in which it stops the unit. -/
def Rd.Sat (E : State → Prop) (Q : α → State → Prop) : Rd α → Prop
  | .ready v s => Q v s
  | .needMoreOpen s => E s
  | .needMoreClosed s => E s
  | .fatal _ s => E s

/-- The rule of sequence. -/
theorem Rd.Sat.bind {R : β → State → Prop} {r : Rd α} {f : α → State → Rd β} (hr : r.Sat E Q)
    (hf : ∀ v t, Q v t → (f v t).Sat E R) : (r.bind f).Sat E R := by
  cases r with
  | ready v t => exact hf v t hr
  | needMoreOpen t => exact hr
  | needMoreClosed t => exact hr
  | fatal e t => exact hr

theorem sat_underflow {s : State} (h : E s) : (underflow s : Rd α).Sat E Q := by
  unfold underflow; split
  · exact h
  · exact h

end

/-! ### Inside a unit -/

/-- The state without what an instruction may write before its unit ends: the cursor, the bits, the window, the unit-local
state and the trailer's registers. -/
def blankUnit (s : State) : State :=
  { s with ibOff := 0, brBuf := 0, brLen := 0, win := [], loc := Locals.initial,
           trlCrc := 0, trlIsize := 0, warnCrc := false, warnSize := false }

/-- The part of the structural invariant that each operation of a unit keeps; the core's place is the rest. -/
def UnitOk (s : State) : Prop := Memory.wf s ∧ s.loc.Ok ∧ CursorOk s

/-- `u` is what an instruction at place `p` may have made of `s` before it ends: only the fields of `blankUnit` differ, the
window is extended and that by a block unit only, and the structure is kept. -/
structure Within (p : Slot) (s u : State) : Prop where
  frame : blankUnit u = blankUnit s
  extends_win : s.win <+: u.win
  win_eq : slotPhase p ≠ .block → u.win = s.win
  ok : UnitOk s → UnitOk u

section
variable {p : Slot} {s u v : State}

theorem Within.refl (p : Slot) (s : State) : Within p s s := ⟨rfl, List.prefix_rfl, fun _ => rfl, id⟩

/-- An update that leaves the window alone. -/
theorem Within.updated (h : Within p s u) (hf : blankUnit v = blankUnit u) (hw : v.win = u.win)
    (hk : UnitOk s → UnitOk u → UnitOk v) : Within p s v :=
  ⟨hf.trans h.frame, hw ▸ h.extends_win, fun hp => hw.trans (h.win_eq hp), fun hs => hk hs (h.ok hs)⟩

/-- An update of a block's window that extends it. -/
theorem Within.extended (h : Within p s u) (hp : slotPhase p = .block) (hv : v = { u with win := v.win })
    (hw : u.win <+: v.win) : Within p s v :=
  ⟨(congrArg blankUnit hv).trans h.frame, h.extends_win.trans hw, fun hn => absurd hp hn,
    fun hs => by rw [hv]; exact h.ok hs⟩

/-- A view of the state that `blankUnit` does not touch is kept. -/
theorem Within.kept {β : Sort*} (h : Within p s u) (f : State → β) (hf : ∀ x, f (blankUnit x) = f x) : f u = f s := by
  rw [← hf u, h.frame, hf]

theorem Within.taken (h : Within p s u) {n : Nat} (hn : n ≤ avail u) : Within p s (taken n u) :=
  h.updated rfl rfl fun _ ⟨hw, hl, hc⟩ => ⟨wf_taken hw hn, hl, cursorOk_taken hc n⟩

theorem Within.brDrop (h : Within p s u) (n : Nat) : Within p s (brDrop n u) :=
  h.updated rfl rfl fun _ ⟨hw, hl, hc⟩ => ⟨wf_brDrop hw n, hl, cursorOk_brDrop hc n⟩

theorem Within.brAlign (h : Within p s u) : Within p s (brAlign u) := h.brDrop _

/-- One round of `BrFill` while fewer than 16 bits are valid (40_input_bitreader.md R139, R145). -/
theorem Within.brPush_taken (h : Within p s u) (h1 : 1 ≤ avail u) (h16 : UnitOk s → u.brLen < 16) :
    Within p s (brPush (u.ibData.getD u.ibOff 0) (Machine.taken 1 u)) := by
  refine h.updated rfl rfl fun hs ⟨hw, hl, hc⟩ => ?_
  obtain ⟨-, -, ⟨-, hclean⟩, -⟩ := id hw
  have hlen := h16 hs
  rw [Machine.brPush_taken hclean h1 (by omega)]
  exact ⟨wf_pulled hw h1 (by omega), hl, cursorOk_pulled hc 1⟩

theorem Within.winWrite (h : Within p s u) (hp : slotPhase p = .block) (b : Byte) : Within p s (winWrite b u) :=
  h.extended hp rfl (List.prefix_append _ _)

theorem Within.copyMatch (h : Within p s u) (hp : slotPhase p = .block) (n dist : Nat) :
    Within p s (copyMatch n dist u) :=
  h.extended hp (copyMatch_eq n dist u) (win_isPrefix_copyMatch n dist u)

/-- The ranges of unit-local values and of the tables among them. -/
def Locals.InRange (l : Locals) : Prop := l.Ok ∧ l.clT.Ok 19 ∧ l.litT.Ok 288 ∧ l.distT.Ok 32

theorem UnitOk.inRange (h : UnitOk s) : s.loc.InRange := by
  obtain ⟨⟨-, -, -, -, htables⟩, hl, -⟩ := h
  exact ⟨hl, htables⟩

theorem Within.withLoc (h : Within p s u) {l : Locals} (hl : u.loc.InRange → l.InRange) :
    Within p s { u with loc := l } :=
  h.updated rfl rfl fun _ hu => by
    obtain ⟨hl', htables⟩ := hl hu.inRange
    obtain ⟨⟨h1, h2, h3, h4, -⟩, -, hc⟩ := hu
    exact ⟨⟨h1, h2, h3, h4, htables⟩, hl', hc⟩

/-! ### The reads of a unit -/

theorem Within.ibTake (h : Within p s u) : (ibTake u).Sat (Within p s) fun _ t => Within p s t := by
  rcases Nat.eq_zero_or_pos (avail u) with h0 | h1
  · rw [ibTake_underflow h0]; exact sat_underflow h
  · rw [ibTake_ready h1]; exact h.taken h1

theorem Within.ibSkip (h : Within p s u) (n : Nat) : (ibSkip n u).Sat (Within p s) fun _ t => Within p s t := by
  rcases Nat.lt_or_ge (avail u) n with hn | hn
  · rw [ibSkip_underflow hn]; exact sat_underflow (h.taken le_rfl)
  · rw [ibSkip_ready n hn]; exact h.taken hn

theorem Within.ibSkipNulLoop (h : Within p s u) (fuel : Nat) :
    (ibSkipNulLoop fuel u).Sat (Within p s) fun _ t => Within p s t := by
  induction fuel generalizing u with
  | zero => exact sat_underflow h
  | succ fuel ih =>
    refine h.ibTake.bind fun b t ht => ?_
    split
    · exact ht
    · exact ih ht

theorem Within.ibSkipNul (h : Within p s u) : (ibSkipNul u).Sat (Within p s) fun _ t => Within p s t :=
  h.ibSkipNulLoop _

theorem Within.brFillLoop (h : Within p s u) (fuel : Nat) {n : Nat} (hn : UnitOk s → n ≤ 16) :
    (brFillLoop fuel n u).Sat (Within p s) fun _ t => Within p s t := by
  induction fuel generalizing u with
  | zero => exact h
  | succ fuel ih =>
    rw [Machine.brFillLoop]
    split
    case isTrue hlt =>
      rcases Nat.eq_zero_or_pos (avail u) with h0 | h1
      · rw [ibTake_underflow h0, bind_underflow]; exact sat_underflow h
      · rw [ibTake_ready h1]
        exact ih (h.brPush_taken h1 fun hs => hlt.trans_le (hn hs))
    case isFalse => exact h

theorem Within.brPeek (h : Within p s u) {n : Nat} (hn : UnitOk s → n ≤ 16) :
    (brPeek n u).Sat (Within p s) fun v t => Within p s t ∧ v < 2 ^ n :=
  (h.brFillLoop n hn).bind fun _ _ ht => ⟨ht, Nat.mod_lt _ (by positivity)⟩

theorem Within.brShift (h : Within p s u) {n : Nat} (hn : n ≤ 16) :
    (brShift n u).Sat (Within p s) fun v t => Within p s t ∧ v < 2 ^ n :=
  (h.brFillLoop n fun _ => hn).bind fun _ _ ht => ⟨ht.brDrop n, Nat.mod_lt _ (by positivity)⟩

theorem Within.brWordLe (h : Within p s u) (n : Nat) : (brWordLe n u).Sat (Within p s) fun _ t => Within p s t := by
  induction n generalizing u with
  | zero => exact h
  | succ n ih => exact (h.brShift (by omega)).bind fun _ _ ht => (ih ht.1).bind fun _ _ hv => hv

theorem Within.copyStored (h : Within p s u) (hp : slotPhase p = .block) (n : Nat) :
    (copyStored n u).Sat (Within p s) fun _ t => Within p s t := by
  induction n generalizing u with
  | zero => exact h
  | succ n ih => exact (h.brShift (by omega)).bind fun _ _ ht => ih (ht.1.winWrite hp _)

theorem Within.copyBackRef (h : Within p s u) (hp : slotPhase p = .block) (len dist : Nat) :
    (copyBackRef len dist u).Sat (Within p s) fun _ t => Within p s t := by
  unfold Machine.copyBackRef
  split
  · exact h
  · exact h.copyMatch hp len dist

/-- A slot of a table over `n` symbols, one past its end included, holds a symbol of the alphabet. -/
theorem Table.Ok.symbol_lt {n : Nat} {t : Table} (h : t.Ok n) (i : Nat) : t.symbol.getD i 0 < n := by
  obtain ⟨-, hlen, -, -, hsym⟩ := h
  rcases Nat.lt_or_ge i t.symbol.length with hi | hi
  · rw [List.getD_eq_getElem _ _ hi]; exact hsym _ (List.getElem_mem hi)
  · have h0 : 0 < t.symbol.length := by rw [hlen]; positivity
    rw [List.getD_eq_default _ _ hi]
    exact (Nat.zero_le _).trans_lt (hsym _ (List.getElem_mem h0))

/-- `Decode` answers a symbol of the table's alphabet (41_huffman_table.md R170, R176). -/
theorem Within.decodeSymbol (h : Within p s u) {n : Nat} {t : Table} (ht : UnitOk s → t.Ok n) :
    (decodeSymbol t u).Sat (Within p s) fun sym v => Within p s v ∧ (UnitOk s → sym < n) := by
  have h16 : UnitOk s → t.m ≤ 16 := fun hs => (ht hs).1.trans (by decide)
  refine (h.brPeek h16).bind fun i v hv => ?_
  split
  · exact hv.1
  · exact ⟨hv.1.brDrop _, fun hs => (ht hs).symbol_lt i⟩

theorem Within.lengthValue (h : Within p s u) (k : Nat) :
    (lengthValue k u).Sat (Within p s) fun len t => Within p s t ∧ len ≤ Config.pLenMax :=
  (h.brShift ((lextra_le k).trans (by decide))).bind fun _ _ ht => ⟨ht.1, min_le_right _ _⟩

theorem Within.distanceValue (h : Within p s u) (d : Nat) :
    (distanceValue d u).Sat (Within p s) fun _ t => Within p s t :=
  (h.brShift ((dextra_le d).trans (by decide))).bind fun _ _ ht => ht.1

theorem Within.buildTable (h : Within p s u) (lens : List Nat) :
    (buildTable lens u).Sat (Within p s) fun t v => v = u ∧ build lens = .ok t := by
  unfold Machine.buildTable
  split
  case h_1 t ht => exact ⟨rfl, ht⟩
  case h_2 => exact h

/-- The lengths of the code-length code are 3-bit numbers, and there stay as many of them (42_deflate_blocks.md R208). -/
theorem Within.readCll (h : Within p s u) (ps : List Nat) {cll : List Nat} (hc : ∀ x ∈ cll, x < 8) :
    (readCll ps cll u).Sat (Within p s) fun ls t => Within p s t ∧ ls.length = cll.length ∧ ∀ x ∈ ls, x < 8 := by
  induction ps generalizing u cll with
  | nil => exact ⟨h, rfl, hc⟩
  | cons k ps ih =>
    refine (h.brShift (by omega)).bind fun v t ⟨ht, hv⟩ => ?_
    have hset : ∀ x ∈ cll.set k v, x < 8 := fun x hx => by
      rcases List.mem_or_eq_of_mem_set hx with hx | rfl
      · exact hc x hx
      · exact hv
    simpa using ih ht hset

end
end Sys2Proof.Machine

/-! ## What each instruction leaves: the rules of the decoder, the instructions, the fetch and the step -/

namespace Sys2Proof.Machine

/-! ### The decoder -/

theorem decodeFlag_eq_ok {bit flg : Nat} {i j : Instr} (h : decodeFlag bit i flg = .ok j) : j = i := by
  unfold decodeFlag at h
  split at h
  · cases h; rfl
  · cases h

theorem decodeBlockHeader_sound (w : Nat) : (decodeBlockHeader w).wf = true ∧ slotOf (decodeBlockHeader w) = .bh := by
  unfold decodeBlockHeader
  split <;> exact ⟨rfl, rfl⟩

theorem decodeCodeLength_sound {w : Nat} {i : Instr} (h : decodeCodeLength w = .ok i) : i.wf = true ∧ slotOf i = .cl := by
  unfold decodeCodeLength at h
  split at h
  case isTrue hw => cases h; exact ⟨decide_eq_true hw, rfl⟩
  case isFalse => split at h <;> cases h <;> exact ⟨rfl, rfl⟩

theorem decodeLength_sound {w : Nat} {i : Instr} (h : decodeLength w = .ok i) : i.wf = true ∧ slotOf i = .ll := by
  unfold decodeLength at h
  split at h <;> cases h <;> exact ⟨rfl, rfl⟩

theorem decodeLiteralLength_sound {w : Nat} {i : Instr} (h : decodeLiteralLength w = .ok i) :
    i.wf = true ∧ slotOf i = .ll := by
  unfold decodeLiteralLength at h
  split_ifs at h with h255 h256 h285 h287
  · cases h; exact ⟨rfl, rfl⟩
  · cases h; exact ⟨rfl, rfl⟩
  · exact decodeLength_sound h
  · cases h; exact ⟨decide_eq_true (by omega), rfl⟩

theorem decodeDistance_sound {w : Nat} {i : Instr} (h : decodeDistance w = .ok i) : i.wf = true ∧ slotOf i = .d := by
  unfold decodeDistance at h
  split at h <;> cases h <;> exact ⟨rfl, rfl⟩

/-- What is decoded at a place is a well-formed instruction of that place (30_encoding.md R92 to R100). -/
theorem decode_sound {p : Slot} {w : Nat} {i : Instr} (h : decode p w = .ok i) : i.wf = true ∧ slotOf i = p := by
  cases p with
  | gzFtext | gzFextra | gzFname | gzFcomment | gzFhcrc => rw [decodeFlag_eq_ok h]; exact ⟨rfl, rfl⟩
  | bh => cases h; exact decodeBlockHeader_sound w
  | cl => exact decodeCodeLength_sound h
  | ll => exact decodeLiteralLength_sound h
  | d => exact decodeDistance_sound h
  | gzId | gzCm | gzFlg | gzFlgRsv | gzFixed | stBody | dhCounts | dhCll | trailer => cases h; exact ⟨rfl, rfl⟩

theorem decode_cl_total {w : Nat} (h : w < 19) : ∃ i, decode .cl w = .ok i := by
  rcases Nat.lt_or_ge 15 w with h15 | h15
  · interval_cases w <;> exact ⟨_, rfl⟩
  · exact ⟨_, if_pos h15⟩

theorem decodeLength_total {w : Nat} (h257 : 257 ≤ w) (h285 : w ≤ 285) : ∃ i, decodeLength w = .ok i := by
  interval_cases w <;> exact ⟨_, rfl⟩

theorem decode_ll_total {w : Nat} (h : w < 288) : ∃ i, decode .ll w = .ok i := by
  show ∃ i, decodeLiteralLength w = .ok i
  unfold decodeLiteralLength
  split_ifs with h255 h256 h285 h287
  · exact ⟨_, rfl⟩
  · exact ⟨_, rfl⟩
  · exact decodeLength_total (by omega) h285
  · exact ⟨_, rfl⟩
  · omega

theorem decode_d_total {w : Nat} (h : w < 32) : ∃ i, decode .d w = .ok i := by
  interval_cases w <;> exact ⟨_, rfl⟩

theorem decodeFlag_total {bit : Nat} {flg : Byte} (i : Instr) (h : flg.getLsbD bit = true) :
    ∃ j, decodeFlag bit i flg.toNat = .ok j :=
  ⟨i, if_pos (by rw [BitVec.testBit_toNat]; exact h)⟩

/-! ### What an instruction leaves -/

/-- The states in which an instruction at place `p` that began in `s` may end: the unit suspended or failed, the core at a
further place of the unit, or the unit committed. -/
inductive CoreNext (p : Slot) (s : State) : State → Prop where
  | suspended {u : State} : Within p s u → CoreNext p s (suspend u)
  | failed {u : State} (e : FatalError) : Within p s u → CoreNext p s (errorEntry e u)
  | onward {u : State} {q : Slot} : Within p s u → slotPhase q = slotPhase p → firstSlot (slotPhase q) ≠ .run q →
      slotFlagSet q u.loc.flg → CoreNext p s (goto q u)
  | headerDone {u : State} : Within p s u → slotPhase p = .header → CoreNext p s (commitHeader u)
  | blockDone {u : State} : Within p s u → slotPhase p = .block → CoreNext p s (commitBlock u)
  | trailerDone {u : State} : Within p s u → slotPhase p = .trailer → CoreNext p s (commitTrailer u)

/-- An instruction's outcome is a next state, one of `CoreNext`. -/
def Finishes (p : Slot) (s : State) (o : Host.Outcome State Fault Refusal) : Prop := ∃ t, o = .next t ∧ CoreNext p s t

section
variable {p : Slot} {s u : State}

theorem Rd.Sat.finishes {r : Rd Unit} (h : r.Sat (Within p s) fun _ t => CoreNext p s t) : Finishes p s (finish r) :=
  match r, h with
  | .ready _ _, h => ⟨_, rfl, h⟩
  | .needMoreOpen _, h => ⟨_, rfl, .suspended h⟩
  | .needMoreClosed _, h => ⟨_, rfl, .failed .truncated h⟩
  | .fatal e _, h => ⟨_, rfl, .failed e h⟩

/-! ### The header unit -/

theorem Within.afterComment (h : Within p s u) (hp : slotPhase p = .header) : CoreNext p s (afterComment u) := by
  unfold Machine.afterComment
  split
  case isTrue hf => exact .onward h hp.symm (by decide) hf
  case isFalse => exact .headerDone h hp

theorem Within.afterName (h : Within p s u) (hp : slotPhase p = .header) : CoreNext p s (afterName u) := by
  unfold Machine.afterName
  split
  case isTrue hf => exact .onward h hp.symm (by decide) hf
  case isFalse => exact h.afterComment hp

theorem Within.afterExtra (h : Within p s u) (hp : slotPhase p = .header) : CoreNext p s (afterExtra u) := by
  unfold Machine.afterExtra
  split
  case isTrue hf => exact .onward h hp.symm (by decide) hf
  case isFalse => exact h.afterName hp

theorem Within.afterFixed (h : Within p s u) (hp : slotPhase p = .header) : CoreNext p s (afterFixed u) := by
  unfold Machine.afterFixed
  split
  case isTrue hf => exact .onward h hp.symm (by decide) hf
  case isFalse => exact h.afterExtra hp

theorem execGzId_finishes (h : Within .gzId s u) : Finishes .gzId s (execGzId u) :=
  Rd.Sat.finishes <| h.ibTake.bind fun _ _ ht => ht.ibTake.bind fun _ _ hv => by
    split
    · exact hv
    · exact .onward hv rfl (by decide) trivial

theorem execGzCm_finishes (h : Within .gzCm s u) : Finishes .gzCm s (execGzCm u) :=
  Rd.Sat.finishes <| h.ibTake.bind fun _ _ ht => by
    split
    · exact ht
    · exact .onward ht rfl (by decide) trivial

theorem execGzFlg_finishes (h : Within .gzFlg s u) : Finishes .gzFlg s (execGzFlg u) :=
  Rd.Sat.finishes <| h.ibTake.bind fun flg t ht => by
    have hl : Within .gzFlg s { t with loc := { t.loc with flg := flg } } := ht.withLoc id
    cases hf : flg.getLsbD 0 with
    | true => exact .onward hl rfl (by decide) hf
    | false => exact .onward hl rfl (by decide) trivial

theorem execGzFtext_finishes (h : Within .gzFtext s u) : Finishes .gzFtext s (execGzFtext u) :=
  ⟨_, rfl, .onward h rfl (by decide) trivial⟩

theorem execGzFlgRsv_finishes (h : Within .gzFlgRsv s u) : Finishes .gzFlgRsv s (execGzFlgRsv u) :=
  ⟨_, rfl, .onward h rfl (by decide) trivial⟩

theorem execGzFixed_finishes (h : Within .gzFixed s u) : Finishes .gzFixed s (execGzFixed u) :=
  Rd.Sat.finishes <| (h.ibSkip 6).bind fun _ _ ht => ht.afterFixed rfl

theorem execGzFextra_finishes (h : Within .gzFextra s u) : Finishes .gzFextra s (execGzFextra u) :=
  Rd.Sat.finishes <| h.ibTake.bind fun _ _ h₁ => h₁.ibTake.bind fun _ _ h₂ => (h₂.ibSkip _).bind fun _ _ h₃ =>
    h₃.afterExtra rfl

theorem execGzFname_finishes (h : Within .gzFname s u) : Finishes .gzFname s (execGzFname u) :=
  Rd.Sat.finishes <| h.ibSkipNul.bind fun _ _ ht => ht.afterName rfl

theorem execGzFcomment_finishes (h : Within .gzFcomment s u) : Finishes .gzFcomment s (execGzFcomment u) :=
  Rd.Sat.finishes <| h.ibSkipNul.bind fun _ _ ht => ht.afterComment rfl

theorem execGzFhcrc_finishes (h : Within .gzFhcrc s u) : Finishes .gzFhcrc s (execGzFhcrc u) :=
  Rd.Sat.finishes <| (h.ibSkip 2).bind fun _ _ ht => .headerDone ht rfl

/-! ### Block headers and the stored body -/

theorem Within.openBlock (h : Within p s u) (f : Bool) (t : BitVec 2) : Within p s (openBlock f t u) := h.withLoc id

theorem execBlkStored_finishes (h : Within .bh s u) (f : Bool) : Finishes .bh s (execBlkStored f u) :=
  ⟨_, rfl, .onward (h.openBlock f 0) rfl (by decide) trivial⟩

theorem execBlkFixed_finishes (h : Within .bh s u) (f : Bool) : Finishes .bh s (execBlkFixed f u) :=
  ⟨_, rfl, .onward (h.openBlock f 1) rfl (by decide) trivial⟩

theorem execBlkDynamic_finishes (h : Within .bh s u) (f : Bool) : Finishes .bh s (execBlkDynamic f u) :=
  ⟨_, rfl, .onward (h.openBlock f 2) rfl (by decide) trivial⟩

theorem execBlkReserved_finishes (h : Within .bh s u) (f : Bool) : Finishes .bh s (execBlkReserved f u) :=
  ⟨_, rfl, .failed _ (h.openBlock f 3)⟩

theorem execStBody_finishes (h : Within .stBody s u) : Finishes .stBody s (execStBody u) :=
  Rd.Sat.finishes <| (h.brAlign.brShift le_rfl).bind fun len _ h₁ => (h₁.1.brShift le_rfl).bind fun _ _ h₂ => by
    split
    · exact h₂.1
    · exact (h₂.1.copyStored rfl len).bind fun _ _ h₃ => .blockDone h₃ rfl

/-! ### The dynamic header -/

theorem execDhCounts_finishes (h : Within .dhCounts s u) : Finishes .dhCounts s (execDhCounts u) :=
  Rd.Sat.finishes <| (h.brShift (by decide)).bind fun hlit _ ⟨h₁, hlit_lt⟩ =>
    (h₁.brShift (by decide)).bind fun hdist _ ⟨h₂, hdist_lt⟩ =>
      (h₂.brShift (by decide)).bind fun hclen _ ⟨h₃, hclen_lt⟩ => by
        refine .onward (h₃.withLoc fun ⟨⟨_, _, _, hlens, hlen⟩, htables⟩ => ?_) rfl (by decide) trivial
        have hlit_le : hlit + 257 ≤ 288 := by omega
        have hdist_le : hdist + 1 ≤ 32 := by omega
        have hclen_le : hclen + 4 ≤ 19 := by omega
        exact ⟨⟨hlit_le, hdist_le, hclen_le, hlens, hlen⟩, htables⟩

theorem execDhCll_finishes (h : Within .dhCll s u) : Finishes .dhCll s (execDhCll u) :=
  Rd.Sat.finishes <| (h.readCll _ (cll := List.replicate 19 0) (by decide)).bind fun cll _ ⟨h₁, hlength, hcll⟩ =>
    (h₁.buildTable cll).bind fun t v ⟨hv, ht⟩ => by
      subst hv
      have hok : t.Ok 19 := by
        have := build_table_ok ht fun x hx => (hcll x hx).le.trans (by decide)
        rwa [hlength] at this
      refine .onward (h₁.withLoc fun ⟨⟨hlit, hdist, hclen, _, hlen⟩, _, hlitT, hdistT⟩ => ?_) rfl (by decide) trivial
      exact ⟨⟨hlit, hdist, hclen, by simp, hlen⟩, hok, hlitT, hdistT⟩

/-- A table built from at most `n` of the code lengths read. -/
theorem build_sublist_ok {l : Locals} {ls : List Nat} {t : Table} {n : Nat} (hl : l.Ok) (hsub : ls.Sublist l.lens)
    (hn : ls.length ≤ n) (ht : build ls = .ok t) : t.Ok n := by
  obtain ⟨-, -, -, hlens, -⟩ := hl
  exact (build_table_ok ht fun x hx => hlens x (hsub.subset hx)).mono hn

theorem Within.buildBlockTables (h : Within p s u) (hp : slotPhase p = .block) :
    (buildBlockTables u).Sat (Within p s) fun _ t => CoreNext p s t :=
  (h.buildTable _).bind fun lt v ⟨hv, hlt⟩ => by
    subst hv
    refine (h.buildTable _).bind fun dt w ⟨hw, hdt⟩ => ?_
    subst hw
    refine .onward (h.withLoc fun hr => ?_) hp.symm (by decide) trivial
    obtain ⟨hl, hclT, -⟩ := hr
    obtain ⟨hlit, hdist, -⟩ := id hl
    exact ⟨hl, hclT, build_sublist_ok hl (List.take_sublist _ _) (List.length_take_le _ _ |>.trans hlit) hlt,
      build_sublist_ok hl ((List.take_sublist _ _).trans (List.drop_sublist _ _))
        (List.length_take_le _ _ |>.trans hdist) hdt⟩

theorem Within.nextCodeLength (h : Within p s u) (hp : slotPhase p = .block) :
    (nextCodeLength u).Sat (Within p s) fun _ t => CoreNext p s t := by
  unfold Machine.nextCodeLength
  split
  · exact .onward h hp.symm (by decide) trivial
  · exact h.buildBlockTables hp

theorem Within.appendLens (h : Within p s u) {ls : List Nat} (hls : u.loc.Ok → ∀ x ∈ ls, x ≤ Config.pMaxBits) :
    Within p s (appendLens ls u) :=
  h.withLoc fun ⟨hl, htables⟩ => by
    obtain ⟨hlit, hdist, hclen, hlens, hlen⟩ := id hl
    refine ⟨⟨hlit, hdist, hclen, fun x hx => ?_, hlen⟩, htables⟩
    exact (List.mem_append.mp hx).elim (hlens x) (hls hl x)

theorem Within.appendRun (h : Within p s u) (hp : slotPhase p = .block) (r : Nat) {v : Nat}
    (hv : u.loc.Ok → v ≤ Config.pMaxBits) : (appendRun r v u).Sat (Within p s) fun _ t => CoreNext p s t := by
  unfold Machine.appendRun
  split
  · exact h
  · exact (h.appendLens fun hl x hx => List.eq_of_mem_replicate hx ▸ hv hl).nextCodeLength hp

theorem execClLen_finishes (h : Within .cl s u) {n : Nat} (hn : n ≤ 15) : Finishes .cl s (execClLen n u) :=
  Rd.Sat.finishes <| (h.appendLens fun _ x hx => by rw [List.mem_singleton.mp hx]; exact hn).nextCodeLength rfl

theorem Locals.Ok.getLastD_le {l : Locals} (h : l.Ok) : l.lens.getLastD 0 ≤ Config.pMaxBits := by
  obtain ⟨-, -, -, hlens, -⟩ := h
  rcases List.eq_nil_or_concat' l.lens with h0 | ⟨ls, x, hx⟩
  · rw [h0]; exact Nat.zero_le _
  · rw [hx, List.getLastD_concat]; exact hlens x (by simp [hx])

theorem execClRep_finishes (h : Within .cl s u) : Finishes .cl s (execClRep u) := by
  refine Rd.Sat.finishes ?_
  split
  · exact h
  · exact (h.brShift (by decide)).bind fun e _ ht => ht.1.appendRun rfl (3 + e) Locals.Ok.getLastD_le

theorem execClZero3_finishes (h : Within .cl s u) : Finishes .cl s (execClZero3 u) :=
  Rd.Sat.finishes <| (h.brShift (by decide)).bind fun e _ ht => ht.1.appendRun rfl (3 + e) fun _ => Nat.zero_le _

theorem execClZero11_finishes (h : Within .cl s u) : Finishes .cl s (execClZero11 u) :=
  Rd.Sat.finishes <| (h.brShift (by decide)).bind fun e _ ht => ht.1.appendRun rfl (11 + e) fun _ => Nat.zero_le _

/-! ### Symbols and the trailer -/

theorem execLit_finishes (h : Within .ll s u) (b : Byte) : Finishes .ll s (execLit b u) :=
  ⟨_, rfl, .onward (h.winWrite rfl b) rfl (by decide) trivial⟩

theorem execEob_finishes (h : Within .ll s u) : Finishes .ll s (execEob u) := ⟨_, rfl, .blockDone h rfl⟩

theorem lengthSymbol_finishes (h : Within .ll s u) (k : Nat) : Finishes .ll s (finish (lengthSymbol k u)) :=
  Rd.Sat.finishes <| (h.lengthValue k).bind fun len _ ⟨ht, hlen⟩ => by
    refine .onward (ht.withLoc fun ⟨⟨hlit, hdist, hclen, hlens, _⟩, htables⟩ => ?_) rfl (by decide) trivial
    exact ⟨⟨hlit, hdist, hclen, hlens, hlen⟩, htables⟩

theorem distanceSymbol_finishes (h : Within .d s u) (d : Nat) : Finishes .d s (finish (distanceSymbol d u)) :=
  Rd.Sat.finishes <| (h.distanceValue d).bind fun dist t ht => (ht.copyBackRef rfl t.loc.len dist).bind fun _ _ hv =>
    .onward hv rfl (by decide) trivial

theorem Within.verify (h : Within p s u) (c sz : Word) : (verify c sz u).Sat (Within p s) fun _ t => Within p s t := by
  unfold Machine.verify
  split
  · exact h
  · exact h.updated rfl rfl fun _ hu => hu
  · split_ifs
    · exact h
    · exact h
    · exact h

theorem execGzTrailer_finishes (h : Within .trailer s u) : Finishes .trailer s (execGzTrailer u) :=
  Rd.Sat.finishes <| (h.brAlign.brWordLe 4).bind fun c _ h₁ => (h₁.brWordLe 4).bind fun sz t h₂ => by
    have h₃ : Within .trailer s { t with trlCrc := BitVec.ofNat 32 c, trlIsize := BitVec.ofNat 32 sz } :=
      h₂.updated rfl rfl fun _ hu => hu
    exact (h₃.verify _ _).bind fun _ _ h₄ => .trailerDone h₄ rfl

/-! ### Every instruction -/

/-- Each well-formed instruction ends in a next state of `CoreNext`: none faults, none is refused (60_exceptions.md R500). -/
theorem exec_finishes {i : Instr} (hw : i.wf = true) (h : Within (slotOf i) s u) : Finishes (slotOf i) s (exec i u) := by
  cases i with
  | gzId => exact execGzId_finishes h
  | gzCm => exact execGzCm_finishes h
  | gzFlg => exact execGzFlg_finishes h
  | gzFixed => exact execGzFixed_finishes h
  | gzFextra => exact execGzFextra_finishes h
  | gzFname => exact execGzFname_finishes h
  | gzFcomment => exact execGzFcomment_finishes h
  | gzFhcrc => exact execGzFhcrc_finishes h
  | gzFtext => exact execGzFtext_finishes h
  | gzFlgRsv => exact execGzFlgRsv_finishes h
  | blkStored f => exact execBlkStored_finishes h f
  | blkFixed f => exact execBlkFixed_finishes h f
  | blkDynamic f => exact execBlkDynamic_finishes h f
  | blkReserved f => exact execBlkReserved_finishes h f
  | stBody => exact execStBody_finishes h
  | dhCounts => exact execDhCounts_finishes h
  | dhCll => exact execDhCll_finishes h
  | clLen n => exact execClLen_finishes h (of_decide_eq_true hw)
  | clRep => exact execClRep_finishes h
  | clZero3 => exact execClZero3_finishes h
  | clZero11 => exact execClZero11_finishes h
  | lit b => exact execLit_finishes h b
  | eob => exact execEob_finishes h
  | len257 | len258 | len259 | len260 | len261 | len262 | len263 | len264 | len265 | len266 | len267 | len268 | len269
  | len270 | len271 | len272 | len273 | len274 | len275 | len276 | len277 | len278 | len279 | len280 | len281 | len282
  | len283 | len284 | len285 => exact lengthSymbol_finishes h _
  | illLen n => exact ⟨_, rfl, .failed .lenSym h⟩
  | dist0 | dist1 | dist2 | dist3 | dist4 | dist5 | dist6 | dist7 | dist8 | dist9 | dist10 | dist11 | dist12 | dist13
  | dist14 | dist15 | dist16 | dist17 | dist18 | dist19 | dist20 | dist21 | dist22 | dist23 | dist24 | dist25 | dist26
  | dist27 | dist28 | dist29 => exact distanceSymbol_finishes h _
  | illDist n => exact ⟨_, rfl, .failed .distSym h⟩
  | gzTrailer => exact execGzTrailer_finishes h

end

/-! ### The fetch -/

/-- The ROM's tables and the empty table in their stead are tables over their alphabets. -/
theorem romTable_ok {lens : List Nat} {n : Nat} (h15 : ∀ x ∈ lens, x ≤ Config.pMaxBits) (hlen : lens.length = n)
    (hn : 0 < n) : (romTable lens).Ok n := by
  unfold romTable
  split
  case h_1 t ht => exact hlen ▸ build_table_ok ht h15
  case h_2 => exact tableOk_empty hn

theorem fixedLitT_ok : fixedLitT.Ok 288 := by
  have h15 : ∀ x ∈ fixedLitLengths, x ≤ Config.pMaxBits := fun x hx => by
    simp only [fixedLitLengths, List.mem_append, List.mem_replicate] at hx; rw [Config.pMaxBits]; omega
  rw [fixedLitT]
  exact romTable_ok h15 (by simp only [fixedLitLengths, List.length_append, List.length_replicate]) (by decide)

theorem fixedDistT_ok : fixedDistT.Ok 32 := by
  have h15 : ∀ x ∈ fixedDistLengths, x ≤ Config.pMaxBits := fun x hx => by
    simp only [fixedDistLengths, List.mem_replicate] at hx; rw [Config.pMaxBits]; omega
  rw [fixedDistT]
  exact romTable_ok h15 (by simp only [fixedDistLengths, List.length_replicate]) (by decide)

section
variable {p : Slot} {s t : State}

theorem UnitOk.clT_ok (h : UnitOk s) : s.loc.clT.Ok 19 := by
  obtain ⟨-, hclT, -⟩ := h.inRange
  exact hclT

theorem UnitOk.litTable_ok (h : UnitOk s) : (litTable s).Ok 288 := by
  obtain ⟨-, -, hlitT, -⟩ := h.inRange
  unfold litTable; split
  · exact fixedLitT_ok
  · exact hlitT

theorem UnitOk.distTable_ok (h : UnitOk s) : (distTable s).Ok 32 := by
  obtain ⟨-, -, -, hdistT⟩ := h.inRange
  unfold distTable; split
  · exact fixedDistT_ok
  · exact hdistT

/-- What a fetch answers at place `p` is what the decoder says of some word, which stands for an instruction if the state is
well-formed and FLG selects the place (30_encoding.md R93, R98 to R100; 41_huffman_table.md R181). -/
def Fetched (p : Slot) (s : State) (r : Except Reject Instr) : Prop :=
  ∃ w, r = decode p w ∧ (UnitOk s → slotFlagSet p s.loc.flg → ∃ i, decode p w = .ok i)

theorem fetch_sat (p : Slot) (s : State) :
    (fetch p s).Sat (Within p s) fun r t => Within p s t ∧ Fetched p s r := by
  have h := Within.refl p s
  cases p with
  | bh =>
    exact (h.brShift (by decide)).bind fun _ _ h₁ => (h₁.1.brShift (by decide)).bind fun _ _ h₂ =>
      ⟨h₂.1, _, rfl, fun _ _ => ⟨_, rfl⟩⟩
  | cl =>
    exact (h.decodeSymbol UnitOk.clT_ok).bind fun _ _ ⟨ht, hw⟩ =>
      ⟨ht, _, rfl, fun hs _ => decode_cl_total (hw hs)⟩
  | ll =>
    exact (h.decodeSymbol UnitOk.litTable_ok).bind fun _ _ ⟨ht, hw⟩ => ⟨ht, _, rfl, fun hs _ => decode_ll_total (hw hs)⟩
  | d =>
    exact (h.decodeSymbol UnitOk.distTable_ok).bind fun _ _ ⟨ht, hw⟩ => ⟨ht, _, rfl, fun hs _ => decode_d_total (hw hs)⟩
  | gzFtext | gzFextra | gzFname | gzFcomment | gzFhcrc => exact ⟨h, _, rfl, fun _ hf => decodeFlag_total _ hf⟩
  | gzId | gzCm | gzFlg | gzFlgRsv | gzFixed | stBody | dhCounts | dhCll | trailer =>
    exact ⟨h, _, rfl, fun _ _ => ⟨_, rfl⟩⟩

/-! ### The step -/

/-- A step of the running core ends in a state of `CoreNext`, unless the fetch found no instruction. -/
theorem step_run (hc : s.ctl = .run p) :
    Finishes p s (step s) ∨ ∃ e t, fetch p s = .ready (.error e) t ∧ step s = .fault (.noInstruction p e) := by
  have hf := fetch_sat p s
  cases hr : fetch p s with
  | ready r t =>
    rw [hr] at hf
    obtain ⟨ht, w, hw, -⟩ := hf
    cases r with
    | ok i =>
      obtain ⟨hwf, rfl⟩ := decode_sound hw.symm
      have hs : step s = exec i t := by simp only [step, hc, hr]
      exact .inl (hs ▸ exec_finishes hwf ht)
    | error e => exact .inr ⟨e, t, rfl, by simp only [step, hc, hr]⟩
  | needMoreOpen t =>
    rw [hr] at hf
    exact .inl ⟨_, by simp only [step, hc, hr, finish_eq, settle], .suspended hf⟩
  | needMoreClosed t =>
    rw [hr] at hf
    exact .inl ⟨_, by simp only [step, hc, hr, finish_eq, settle], .failed .truncated hf⟩
  | fatal e t =>
    rw [hr] at hf
    exact .inl ⟨_, by simp only [step, hc, hr, finish_eq, settle], .failed e hf⟩

/-- What a step of the running core can do. -/
theorem step_run_cases (hc : s.ctl = .run p) (h : step s = .next t) : CoreNext p s t := by
  rcases step_run hc with ⟨u, hu, hn⟩ | ⟨e, u, -, hu⟩
  · rw [h] at hu; cases hu; exact hn
  · rw [h] at hu; cases hu

/-- What a step of the stopped core does: the host's next transaction, or nothing. -/
theorem step_idle (hc : s.ctl = .idle) : step s = .next (hostStep s) := by unfold step; rw [hc]

/-- No step from a state with the structural invariant faults or is refused (60_exceptions.md R500). -/
theorem step_goes (h : StructOk s) : ∃ t, step s = .next t := by
  obtain ⟨hw, hl, hctl, hcur⟩ := h
  cases hc : s.ctl with
  | idle => exact ⟨_, step_idle hc⟩
  | run p =>
    rcases step_run hc with ⟨t, ht, -⟩ | ⟨e, t, hf, -⟩
    · exact ⟨t, ht⟩
    · have hfetch := fetch_sat p s
      rw [hf] at hfetch
      obtain ⟨-, w, hr, htotal⟩ := hfetch
      unfold ControlOk at hctl
      rw [hc] at hctl
      obtain ⟨-, hflag, -⟩ := hctl
      obtain ⟨i, hi⟩ := htotal ⟨hw, hl, hcur⟩ hflag
      rw [hi] at hr; cases hr

end
end Sys2Proof.Machine

/-! ## The invariant of the machine is kept by every step, and every run from it is safe -/

namespace Sys2Proof.Machine

section
variable {p : Slot} {s t u : State}

/-! ### What a step can do -/

/-- The states that the host's next transaction may leave from a stopped core: reset, a unit begun by H_RUN, H_RUN that
returns at once, and the rest, which write the host's own fields only (46_host_interface.md R471 to R478). -/
inductive HostNext (s : State) : State → Prop where
  | reset : HostNext s (hReset s)
  | begun : firstSlot s.phase ≠ .idle → HostNext s (startUnit s)
  | returned {r : RunResult} : (s.phase = .done ∧ r = .done) ∨ (s.phase = .error ∧ r = .error) →
      HostNext s (returnToHost r s)
  | served {data : List Byte} (closed : Bool) (mode : VerifyMode) (answer : Reply) :
      s.ibData.length ≤ data.length →
      HostNext s { s with ibData := data, ibEnd := closed, cfgVerify := mode, reply := answer }

theorem hRun_hostNext (s : State) : HostNext s (hRun s) := by
  unfold hRun
  split
  case h_1 hp => exact .returned (.inl ⟨hp, rfl⟩)
  case h_2 hp => exact .returned (.inr ⟨hp, rfl⟩)
  case h_3 hp => exact .begun (by rw [hp]; decide)
  case h_4 hp => exact .begun (by rw [hp]; decide)
  case h_5 hp => exact .begun (by rw [hp]; decide)

theorem hAppend_hostNext (chunk : List Byte) (s : State) : HostNext s (hAppend chunk s) := by
  unfold hAppend ibAppend
  split
  · exact .served _ _ _ le_rfl
  · exact .served _ _ _ (by simp)

theorem hConfig_hostNext (v : BitVec 2) (s : State) : HostNext s (hConfig v s) := by
  unfold hConfig
  split
  · exact .served _ _ _ le_rfl
  · exact .served _ _ _ le_rfl

theorem hostTxn_hostNext (q : HostReq) (s : State) : HostNext s (hostTxn q s) := by
  cases q with
  | reset => exact .reset
  | append chunk => exact hAppend_hostNext chunk s
  | close => exact .served true _ _ le_rfl
  | config v => exact hConfig_hostNext v s
  | run => exact hRun_hostNext s
  | read r => exact .served _ _ _ le_rfl
  | out i => exact .served _ _ _ le_rfl

theorem hostStep_hostNext (s : State) : ∃ ts, HostNext { s with host := ts } (hostStep s) := by
  unfold hostStep
  split
  · exact ⟨s.host, .served s.ibEnd s.cfgVerify s.reply le_rfl⟩
  case h_2 q ts _ => exact ⟨ts, hostTxn_hostNext q _⟩

/-- All that a step which goes on can do. -/
theorem step_cases (h : step s = .next t) :
    (s.ctl = .idle ∧ ∃ ts, HostNext { s with host := ts } t) ∨ ∃ p, s.ctl = .run p ∧ CoreNext p s t := by
  obtain hc | ⟨p, hc⟩ : s.ctl = .idle ∨ ∃ p, s.ctl = .run p := by cases s.ctl <;> simp
  · rw [step_idle hc] at h; cases h
    exact .inl ⟨hc, hostStep_hostNext s⟩
  · exact .inr ⟨p, hc, step_run_cases hc h⟩

/-! ### The structure -/

theorem structOk_iff : StructOk s ↔ UnitOk s ∧ ControlOk s := by
  unfold UnitOk; tauto

theorem controlOk_idle (hc : s.ctl = .idle) : ControlOk s ↔ s.phase = .error ∨ s.loc = Locals.initial := by
  unfold ControlOk; rw [hc]

theorem controlOk_run (hc : s.ctl = .run p) :
    ControlOk s ↔ s.phase = slotPhase p ∧ slotFlagSet p s.loc.flg ∧
      (p = .gzId ∨ p = .bh ∨ p = .trailer → s.loc = Locals.initial) := by
  unfold ControlOk; rw [hc]

theorem initial_inRange : Locals.initial.InRange := by
  unfold Locals.InRange; decide

/-- A place other than the first of its unit is none of the three first places. -/
theorem not_first_place {q : Slot} (h : firstSlot (slotPhase q) ≠ .run q) : ¬ (q = .gzId ∨ q = .bh ∨ q = .trailer) := by
  rintro (rfl | rfl | rfl) <;> exact h rfl

/-- A unit begins with no unit-local state and its snapshot at the cursor (10_state.md R38; 40_input_bitreader.md R137). -/
theorem structOk_startUnit (h : UnitOk s) (hl : s.loc = Locals.initial) (hp : firstSlot s.phase ≠ .idle) :
    StructOk (startUnit s) := by
  obtain ⟨hw, hloc, hcur⟩ := h
  have hsnap := wf_snapshot hw
  refine ⟨hsnap, hloc, ?_, cursorOk_startUnit hcur⟩
  cases hphase : s.phase with
  | header => rw [controlOk_run (p := .gzId) (congrArg firstSlot hphase)]; exact ⟨hphase, trivial, fun _ => hl⟩
  | block => rw [controlOk_run (p := .bh) (congrArg firstSlot hphase)]; exact ⟨hphase, trivial, fun _ => hl⟩
  | trailer => rw [controlOk_run (p := .trailer) (congrArg firstSlot hphase)]; exact ⟨hphase, trivial, fun _ => hl⟩
  | done => rw [hphase] at hp; exact absurd rfl hp
  | error => rw [hphase] at hp; exact absurd rfl hp

/-- A stopped core: only the part of the cursors that speaks of a running unit is dropped. -/
theorem structOk_stopped {r : RunResult} (h : UnitOk s) (hl : s.phase = .error ∨ s.loc = Locals.initial) :
    StructOk (returnToHost r s) := by
  obtain ⟨hw, hloc, hpos, hsnap, -⟩ := h
  exact ⟨hw, hloc, hl, hpos, hsnap, fun hc => absurd rfl hc⟩

theorem UnitOk.restore (h : UnitOk s) : UnitOk (restore s) := by
  obtain ⟨hw, -, hcur⟩ := h
  exact ⟨wf_restore hw, initial_inRange.1, cursorOk_restore hcur⟩

theorem Within.unitOk_initial (h : Within p s u) (hs : UnitOk s) : UnitOk { u with loc := Locals.initial } :=
  (h.withLoc fun _ => initial_inRange).ok hs

theorem Within.phase_eq (h : Within p s u) (hphase : s.phase = slotPhase p) : u.phase = slotPhase p :=
  (h.kept State.phase fun _ => rfl).trans hphase

theorem CoreNext.structOk (h : CoreNext p s t) (hc : s.ctl = .run p) (hs : StructOk s) : StructOk t := by
  obtain ⟨hunit, hctl⟩ := structOk_iff.mp hs
  obtain ⟨hphase, -, -⟩ := (controlOk_run hc).mp hctl
  cases h with
  | suspended hu => exact structOk_stopped (hu.ok hunit).restore (.inr rfl)
  | failed e hu => exact structOk_stopped (hu.ok hunit) (.inl rfl)
  | @onward u q hu hq hfirst hflag =>
    obtain ⟨hw, hl, hpos, hsnap, hle⟩ := hu.ok hunit
    have hrun : u.ctl ≠ .idle := by rw [hu.kept State.ctl fun _ => rfl, hc]; exact Ctl.noConfusion
    refine ⟨hw, hl, ?_, hpos, hsnap, fun _ => hle hrun⟩
    exact ⟨(hu.phase_eq hphase).trans hq.symm, hflag, fun hf => absurd hf (not_first_place hfirst)⟩
  | headerDone hu _ => exact structOk_startUnit (hu.unitOk_initial hunit) rfl Ctl.noConfusion
  | @blockDone u hu _ =>
    refine structOk_startUnit (hu.unitOk_initial hunit) rfl ?_
    show firstSlot (if u.loc.bfinal then .trailer else .block) ≠ .idle
    rw [firstSlot_afterBlock]; exact Ctl.noConfusion
  | trailerDone hu _ => exact structOk_stopped (hu.unitOk_initial hunit) (.inr rfl)

theorem HostNext.structOk (h : HostNext s t) (hc : s.ctl = .idle) (hs : StructOk s) : StructOk t := by
  obtain ⟨hunit, hctl⟩ := structOk_iff.mp hs
  rw [controlOk_idle hc] at hctl
  cases h with
  | reset => exact ⟨wf_reset, initial_inRange.1, .inr rfl, cursorOk_reset⟩
  | begun hp =>
    exact structOk_startUnit hunit (hctl.resolve_left fun he => hp (by rw [he]; rfl)) hp
  | returned _ => exact structOk_stopped hunit hctl
  | served _ _ _ hlen =>
    obtain ⟨⟨hoff, hsnap, hw⟩, hl, hcur⟩ := hunit
    exact ⟨⟨hoff.trans hlen, hsnap.trans hlen, hw⟩, hl, by rw [controlOk_idle hc]; exact hctl, hcur⟩

/-- Every step keeps the structural invariant. -/
theorem step_structOk (hs : StructOk s) (h : step s = .next t) : StructOk t := by
  rcases step_cases h with ⟨hc, ts, hn⟩ | ⟨p, hc, hn⟩
  · exact hn.structOk hc hs
  · exact hn.structOk hc hs

/-! ### The accumulators (45_crc32_validator.md R441, R442) -/

/-- The CRC of a concatenation is the CRC continued (45_crc32_validator.md R440). -/
theorem crcUpdate_crc32 (xs ys : List Byte) : crcUpdate (crc32 xs) ys = crc32 (xs ++ ys) := by
  simp only [crc32, crcUpdate, List.foldl_append, BitVec.xor_assoc, BitVec.xor_self, BitVec.xor_zero]

theorem accumOk_commitBlock (h : AccumOk s) : AccumOk (commitBlock s) := by
  obtain ⟨hcrc, htotal⟩ := h
  refine ⟨?_, ?_⟩
  · rw [commitBlock_crcAcc, commitBlock_out, hcrc, crcUpdate_crc32]
  · rw [commitBlock_totalOut, commitBlock_out, htotal, sizeUpdate, List.length_append, BitVec.ofNat_add]

theorem Within.accumOk (h : Within p s u) (ha : AccumOk s) : AccumOk u := (h.kept AccumOk fun _ => rfl).mpr ha

theorem CoreNext.accumOk (h : CoreNext p s t) (ha : AccumOk s) : AccumOk t := by
  cases h with
  | suspended hu => exact hu.accumOk ha
  | failed e hu => exact hu.accumOk ha
  | onward hu => exact hu.accumOk ha
  | headerDone hu => exact hu.accumOk ha
  | blockDone hu => exact accumOk_commitBlock (hu.accumOk ha)
  | trailerDone hu => exact hu.accumOk ha

theorem HostNext.accumOk (h : HostNext s t) (ha : AccumOk s) : AccumOk t := by
  cases h with
  | reset => exact (by decide : AccumOk State.reset)
  | begun => exact ha
  | returned => exact ha
  | served => exact ha

/-- Every step keeps the accumulators' invariant. -/
theorem step_accumOk (ha : AccumOk s) (h : step s = .next t) : AccumOk t := by
  rcases step_cases h with ⟨-, ts, hn⟩ | ⟨p, -, hn⟩
  · exact hn.accumOk ha
  · exact hn.accumOk ha

/-! ### The window (20_memory.md R63, R68, R76) -/

/-- What `WindowOk` says while a unit of place `p` runs. -/
def UnitWindowOk (p : Slot) (s : State) : Prop :=
  s.out = s.win.take s.snapWlen ∧ s.snapWlen ≤ s.win.length ∧ (slotPhase p ≠ .block → s.snapWlen = s.win.length)

theorem windowOk_run (hc : s.ctl = .run p) : WindowOk s ↔ UnitWindowOk p s := by
  unfold WindowOk; rw [hc]; rfl

theorem windowOk_idle (hc : s.ctl = .idle) :
    WindowOk s ↔ if s.phase = .error then s.out <+: s.win else s.out = s.win := by
  unfold WindowOk; rw [hc]

/-- Where OUT is all of WIN a stopped core needs no more. -/
theorem windowOk_of_eq (hc : s.ctl = .idle) (h : s.out = s.win) : WindowOk s := by
  rw [windowOk_idle hc]
  split
  · rw [h]
  · exact h

/-- A unit begins where OUT is all of WIN. -/
theorem windowOk_startUnit (h : s.out = s.win) : WindowOk (startUnit s) := by
  cases hc : (startUnit s).ctl with
  | idle => exact windowOk_of_eq hc h
  | run p =>
    rw [windowOk_run hc]
    exact ⟨by simpa using h, le_rfl, fun _ => rfl⟩

theorem UnitWindowOk.out_eq_win (h : UnitWindowOk p s) (hp : slotPhase p ≠ .block) : s.out = s.win := by
  obtain ⟨hout, -, heq⟩ := h
  rw [hout, heq hp, List.take_length]

/-- Inside a unit the window before the snapshot is never rewritten. -/
theorem Within.unitWindowOk (h : Within p s u) (hw : UnitWindowOk p s) : UnitWindowOk p u := by
  obtain ⟨hout, hle, heq⟩ := hw
  obtain ⟨w, hext⟩ := h.extends_win
  unfold UnitWindowOk
  rw [h.kept State.out fun _ => rfl, h.kept State.snapWlen fun _ => rfl]
  refine ⟨?_, hle.trans h.extends_win.length_le, fun hp => by rw [h.win_eq hp]; exact heq hp⟩
  rw [← hext, List.take_append_of_le_length hle]; exact hout

theorem CoreNext.windowOk (h : CoreNext p s t) (hw : UnitWindowOk p s) : WindowOk t := by
  cases h with
  | suspended hu => exact windowOk_of_eq rfl (hu.unitWindowOk hw).1
  | failed e hu =>
    obtain ⟨hout, -⟩ := hu.unitWindowOk hw
    refine (windowOk_idle rfl).mpr ?_
    rw [if_pos (errorEntry_phase e _)]
    exact hout ▸ List.take_prefix _ _
  | onward hu hq =>
    obtain ⟨hout, hle, heq⟩ := hu.unitWindowOk hw
    exact ⟨hout, hle, hq ▸ heq⟩
  | headerDone hu hp => exact windowOk_startUnit ((hu.unitWindowOk hw).out_eq_win (by rw [hp]; decide))
  | @blockDone u hu _ =>
    obtain ⟨hout, -⟩ := hu.unitWindowOk hw
    refine windowOk_startUnit ?_
    show u.out ++ u.win.drop u.snapWlen = u.win
    rw [hout, List.take_append_drop]
  | trailerDone hu hp => exact windowOk_of_eq rfl ((hu.unitWindowOk hw).out_eq_win (by rw [hp]; decide))

theorem HostNext.windowOk (h : HostNext s t) (hc : s.ctl = .idle) (hw : WindowOk s) : WindowOk t := by
  have hidle := (windowOk_idle hc).mp hw
  cases h with
  | reset => exact windowOk_of_eq rfl rfl
  | begun hp => exact windowOk_startUnit (by rwa [if_neg fun he => hp (by rw [he]; rfl)] at hidle)
  | returned _ => exact (windowOk_idle rfl).mpr hidle
  | served _ _ _ _ => exact (windowOk_idle hc).mpr hidle

/-- Every step keeps what OUT is of WIN. -/
theorem step_windowOk (hw : WindowOk s) (h : step s = .next t) : WindowOk t := by
  rcases step_cases h with ⟨hc, ts, hn⟩ | ⟨p, hc, hn⟩
  · exact hn.windowOk hc hw
  · exact hn.windowOk ((windowOk_run hc).mp hw)

/-! ### The status (10_state.md R26, R27, R34; 46_host_interface.md R483) -/

theorem errCode_range (e : FatalError) : e.code ≠ 0 ∧ e.code.toNat ≤ 7 := by
  cases e <;> exact ⟨by simp [FatalError.code], by simp [FatalError.code]⟩

theorem StatusOk.noError (h : StatusOk s) (hp : s.phase ≠ .error) : s.errCode = 0 ∧ s.errDetail = 0 := by
  obtain ⟨hcode, hdetail, -⟩ := h
  have h0 : s.errCode = 0 := not_not.mp fun hne => hp (hcode.mpr hne)
  exact ⟨h0, hdetail h0⟩

theorem slotPhase_running (p : Slot) : slotPhase p ≠ .error ∧ slotPhase p ≠ .done := by
  cases p <;> exact ⟨by decide, by decide⟩

/-- Where there is no error, PHASE, FINAL and RESULT are all that the status is about. -/
theorem statusOk_of_noError (h0 : s.errCode = 0 ∧ s.errDetail = 0) (hp : s.phase ≠ .error)
    (hfinal : s.phase = .trailer ∨ s.phase = .done → s.final = true)
    (hopen : s.phase = .header ∨ s.phase = .block → s.final = false) (hdone : s.phase = .done → s.result = .done) :
    StatusOk s :=
  ⟨⟨fun h => absurd h hp, fun h => absurd h0.1 h⟩, fun _ => h0.2, by rw [h0.1]; decide, hfinal, hopen,
    fun h => absurd h hp, hdone⟩

theorem statusOk_errorEntry (e : FatalError) : StatusOk (errorEntry e s) := by
  obtain ⟨hne, hle⟩ := errCode_range e
  exact ⟨⟨fun _ => hne, fun _ => rfl⟩, fun h => absurd h hne, hle, fun h => by simp at h, fun h => by simp at h,
    fun _ => rfl, fun h => by simp at h⟩

theorem Within.statusOk (h : Within p s u) (hs : StatusOk s) : StatusOk u := (h.kept StatusOk fun _ => rfl).mpr hs

theorem Within.noError (h : Within p s u) (hphase : s.phase = slotPhase p) (hs : StatusOk s) :
    u.errCode = 0 ∧ u.errDetail = 0 :=
  (h.statusOk hs).noError (by rw [h.phase_eq hphase]; exact (slotPhase_running p).1)

theorem CoreNext.statusOk (h : CoreNext p s t) (hphase : s.phase = slotPhase p) (hs : StatusOk s) : StatusOk t := by
  cases h with
  | @suspended u hu =>
    obtain ⟨hne, hnd⟩ := slotPhase_running p
    rw [← hu.phase_eq hphase] at hne hnd
    obtain ⟨-, -, -, hfinal, hopen, -⟩ := hu.statusOk hs
    exact statusOk_of_noError (hu.noError hphase hs) hne hfinal hopen fun hd => absurd hd hnd
  | failed e => exact statusOk_errorEntry e
  | onward hu => exact hu.statusOk hs
  | @headerDone u hu hp =>
    obtain ⟨-, -, -, -, hopen, -⟩ := hu.statusOk hs
    have hf : u.final = false := hopen (.inl ((hu.phase_eq hphase).trans hp))
    exact statusOk_of_noError (hu.noError hphase hs) (by simp) (by simp) (fun _ => hf) (by simp)
  | @blockDone u hu hp =>
    obtain ⟨-, -, -, -, hopen, -⟩ := hu.statusOk hs
    have hf : u.final = false := hopen (.inr ((hu.phase_eq hphase).trans hp))
    have h0 : (commitBlock u).errCode = 0 ∧ (commitBlock u).errDetail = 0 := hu.noError hphase hs
    cases hb : u.loc.bfinal with
    | false => exact statusOk_of_noError h0 (by simp [hb]) (by simp [hb]) (by simp [hb, hf]) (by simp [hb])
    | true => exact statusOk_of_noError h0 (by simp [hb]) (by simp [hb]) (by simp [hb]) (by simp [hb])
  | @trailerDone u hu hp =>
    obtain ⟨-, -, -, hfinal, -⟩ := hu.statusOk hs
    have hf : u.final = true := hfinal (.inl ((hu.phase_eq hphase).trans hp))
    exact statusOk_of_noError (hu.noError hphase hs) (by simp) (fun _ => hf) (by simp) fun _ => rfl

theorem HostNext.statusOk (h : HostNext s t) (hs : StatusOk s) : StatusOk t := by
  cases h with
  | reset => exact (by decide : StatusOk State.reset)
  | begun => exact hs
  | returned hr =>
    obtain ⟨hcode, hdetail, hle, hfinal, hopen, -, -⟩ := hs
    refine ⟨hcode, hdetail, hle, hfinal, hopen, fun he => ?_, fun hd => ?_⟩
    · rcases hr with ⟨hp, -⟩ | ⟨-, rfl⟩
      · cases hp.symm.trans he
      · rfl
    · rcases hr with ⟨-, rfl⟩ | ⟨hp, -⟩
      · rfl
      · cases hp.symm.trans hd
  | served => exact hs

/-- Every step keeps what PHASE, FINAL, RESULT and the error registers say of one another. -/
theorem step_statusOk (hstruct : StructOk s) (hs : StatusOk s) (h : step s = .next t) : StatusOk t := by
  rcases step_cases h with ⟨-, ts, hn⟩ | ⟨p, hc, hn⟩
  · exact hn.statusOk hs
  · obtain ⟨hphase, -, -⟩ := (controlOk_run hc).mp (structOk_iff.mp hstruct).2
    exact hn.statusOk hphase hs

/-! ### Every run -/

/-- Every step keeps the whole invariant. -/
theorem step_inv (hs : Safety.Inv s) (h : step s = .next t) : Safety.Inv t := by
  obtain ⟨hstruct, haccum, hwindow, hstatus⟩ := hs
  exact ⟨step_structOk hstruct h, step_accumOk haccum h, step_windowOk hwindow h, step_statusOk hstruct hstatus h⟩

/-- The states reached from one with the invariant have it. -/
theorem reaches_inv (hs : Safety.Inv s) (h : Safety.Reaches s t) : Safety.Inv t := by
  induction h with
  | refl => exact hs
  | tail _ hstep ih => exact step_inv ih hstep

end

/-- Settles O18: every step keeps the invariant, so every state reached has it, and from such a state no step faults. -/
theorem invariantStatesAreSafe : Obligations.InvariantStatesAreSafe := by
  unfold Obligations.InvariantStatesAreSafe
  intro s hs t ht
  have hinv := reaches_inv hs ht
  exact ⟨hinv, step_goes hinv.1⟩

end Sys2Proof.Machine
end

section
/-! ## The state family (10_state.md): the invariants kept, the host's view, who writes what, and the stream cursor -/

namespace Sys2Proof.Machine

section
variable {p : Slot} {s t u : State}

/-! ### What a step leaves alone -/

theorem Within.hostFieldsKept (h : Within p s u) : hostFieldsKept s u :=
  ⟨h.kept State.ibData fun _ => rfl, h.kept State.ibEnd fun _ => rfl, h.kept State.cfgVerify fun _ => rfl,
    h.kept State.host fun _ => rfl⟩

theorem Within.committedKept (h : Within p s u) : committedKept s u :=
  ⟨h.kept State.out fun _ => rfl, h.kept State.crcAcc fun _ => rfl, h.kept State.totalOut fun _ => rfl,
    h.kept State.final fun _ => rfl⟩

/-- However an instruction ends, the host's fields are the host's (10_state.md R20, R22, R36). -/
theorem CoreNext.hostFieldsKept (h : CoreNext p s t) : hostFieldsKept s t := by
  cases h with
  | suspended hu => exact hu.hostFieldsKept
  | failed e hu => exact hu.hostFieldsKept
  | onward hu => exact hu.hostFieldsKept
  | headerDone hu => exact hu.hostFieldsKept
  | blockDone hu => exact hu.hostFieldsKept
  | trailerDone hu => exact hu.hostFieldsKept

/-- What every transaction but H_RESET leaves alone: the bytes received and, once the stream is closed, all of the input;
the transactions still to come; the committed results and PHASE (46_host_interface.md R470 to R478). -/
structure TxnKept (s t : State) : Prop where
  received : s.ibData <+: t.ibData
  closed : s.ibEnd = true → t.ibEnd = true ∧ t.ibData = s.ibData
  pendingTxns : t.host = s.host
  committed : committedKept s t
  phase : t.phase = s.phase

/-- A transaction that writes neither the input nor its latch. -/
theorem TxnKept.of_input_eq (hdata : t.ibData = s.ibData) (hend : t.ibEnd = s.ibEnd) (hhost : t.host = s.host)
    (hcommitted : Machine.committedKept s t) (hphase : t.phase = s.phase) : TxnKept s t :=
  ⟨hdata ▸ List.prefix_rfl, fun h => ⟨hend.trans h, hdata⟩, hhost, hcommitted, hphase⟩

theorem hAppend_kept (chunk : List Byte) (s : State) : TxnKept s (hAppend chunk s) := by
  unfold hAppend ibAppend
  split
  case isTrue => exact .of_input_eq rfl rfl rfl ⟨rfl, rfl, rfl, rfl⟩ rfl
  case isFalse hopen => exact ⟨List.prefix_append _ _, fun h => absurd h hopen, rfl, ⟨rfl, rfl, rfl, rfl⟩, rfl⟩

theorem hConfig_kept (v : BitVec 2) (s : State) : TxnKept s (hConfig v s) := by
  unfold hConfig
  split
  · exact .of_input_eq rfl rfl rfl ⟨rfl, rfl, rfl, rfl⟩ rfl
  · exact .of_input_eq rfl rfl rfl ⟨rfl, rfl, rfl, rfl⟩ rfl

theorem hRun_kept (s : State) : TxnKept s (hRun s) := by
  unfold hRun
  split <;> exact .of_input_eq rfl rfl rfl ⟨rfl, rfl, rfl, rfl⟩ rfl

theorem hostTxn_kept {r : HostReq} (hr : r ≠ .reset) (s : State) : TxnKept s (hostTxn r s) := by
  cases r with
  | reset => exact absurd rfl hr
  | append chunk => exact hAppend_kept chunk s
  | close => exact ⟨List.prefix_rfl, fun _ => ⟨rfl, rfl⟩, rfl, ⟨rfl, rfl, rfl, rfl⟩, rfl⟩
  | config v => exact hConfig_kept v s
  | run => exact hRun_kept s
  | read r => exact .of_input_eq rfl rfl rfl ⟨rfl, rfl, rfl, rfl⟩ rfl
  | out i => exact .of_input_eq rfl rfl rfl ⟨rfl, rfl, rfl, rfl⟩ rfl

/-- A step of the stopped core with a transaction pending. -/
theorem step_txn (hc : s.ctl = .idle) {r : HostReq} {ts : List HostReq} (hh : s.host = r :: ts) :
    step s = .next (hostTxn r { s with host := ts }) := by
  rw [step_idle hc, hostStep, hh]

/-- A step of the stopped core is H_RESET, or it keeps what the other transactions keep. -/
theorem step_idle_cases (hc : s.ctl = .idle) (h : step s = .next t) :
    (∃ ts, s.host = .reset :: ts ∧ t = hReset { s with host := ts }) ∨ TxnKept { s with host := s.host.tail } t := by
  cases hh : s.host with
  | nil =>
    have ht : step s = .next s := by rw [step_idle hc, hostStep, hh]
    rw [ht] at h; cases h
    exact .inr (.of_input_eq rfl rfl hh ⟨rfl, rfl, rfl, rfl⟩ rfl)
  | cons r ts =>
    rw [step_txn hc hh] at h; cases h
    by_cases hr : r = .reset
    · subst hr; exact .inl ⟨ts, rfl, rfl⟩
    · exact .inr (hostTxn_kept hr _)

end

/-! ### The two invariants -/

/-- Settles O12: `step_structOk`, by what a step can do (`step_cases`). -/
theorem structureIsKept : Obligations.StructureIsKept := by
  unfold Obligations.StructureIsKept
  exact fun _ _ hs h => step_structOk hs h

/-- Settles O15: `step_statusOk`; the structure says which phase a running core is in. -/
theorem statusIsKept : Obligations.StatusIsKept := by
  unfold Obligations.StatusIsKept
  exact fun _ _ hstruct hs h => step_statusOk hstruct hs h

/-! ### Who writes the input -/

/-- Settles O57: `CoreNext.hostFieldsKept` for the core, `step_idle_cases` for the host. -/
theorem inputIsAppendOnly : Obligations.InputIsAppendOnly := by
  unfold Obligations.InputIsAppendOnly
  refine ⟨fun s t p hc h => (step_run_cases hc h).hostFieldsKept, fun s t hc hreset h => ?_⟩
  rcases step_idle_cases hc h with ⟨ts, hh, -⟩ | hkept
  · exact absurd hh (hreset ts)
  · exact ⟨hkept.received, hkept.closed, hkept.pendingTxns.symm⟩

/-! ### The phase transitions -/

/-- How an instruction changes PHASE: by a commit or by an error (10_state.md R26). -/
theorem CoreNext.phase_cases {p : Slot} {s t : State} (h : CoreNext p s t) (hphase : s.phase = slotPhase p)
    (hne : t.phase ≠ s.phase) :
    (s.phase = .header ∧ t.phase = .block ∧ t.ctl = .run .bh) ∨
    (s.phase = .block ∧ t.phase = .trailer ∧ t.ctl = .run .trailer ∧ t.final = true) ∨
    (s.phase = .trailer ∧ t.phase = .done ∧ t.ctl = .idle ∧ t.result = .done) ∨
    (s.phase ≠ .done ∧ s.phase ≠ .error ∧ t.phase = .error ∧ t.ctl = .idle ∧ t.result = .error ∧ t.errCode ≠ 0) := by
  cases h with
  | suspended hu => exact absurd ((hu.phase_eq hphase).trans hphase.symm) hne
  | failed e _ =>
    obtain ⟨hnerror, hndone⟩ := slotPhase_running p
    obtain ⟨hcode, -⟩ := errCode_range e
    exact .inr (.inr (.inr ⟨hphase ▸ hndone, hphase ▸ hnerror, rfl, rfl, rfl, hcode⟩))
  | onward hu => exact absurd ((hu.phase_eq hphase).trans hphase.symm) hne
  | headerDone _ hp => exact .inl ⟨hphase.trans hp, rfl, rfl⟩
  | @blockDone u _ hp =>
    have hblock : s.phase = .block := hphase.trans hp
    cases hb : u.loc.bfinal with
    | false => exact absurd (by simp [hb, hblock]) hne
    | true => exact .inr (.inl ⟨hblock, by simp [hb], by simp [hb], by simp [hb]⟩)
  | trailerDone _ hp => exact .inr (.inr (.inl ⟨hphase.trans hp, rfl, rfl, rfl⟩))

/-- Settles O59: the core by `CoreNext.phase_cases`; of the host's transactions only H_RESET writes PHASE. -/
theorem phaseTransitions : Obligations.PhaseTransitions := by
  unfold Obligations.PhaseTransitions
  intro s t hs h hne
  cases hc : s.ctl with
  | idle =>
    rcases step_idle_cases hc h with ⟨ts, hh, rfl⟩ | hkept
    · exact .inr (.inr (.inr (.inr ⟨rfl, ⟨ts, hh⟩, rfl⟩)))
    · exact absurd hkept.phase hne
  | run p =>
    obtain ⟨hphase, -, -⟩ := (controlOk_run hc).mp (structOk_iff.mp hs).2
    rcases (step_run_cases hc h).phase_cases hphase hne with hcase | hcase | hcase | hcase
    · exact .inl hcase
    · exact .inr (.inl hcase)
    · exact .inr (.inr (.inl hcase))
    · exact .inr (.inr (.inr (.inl hcase)))

/-! ### The packing of the host's registers (10_state.md R42) -/

theorem RunResult.code_lt (r : RunResult) : r.code < 4 := by cases r <;> decide

theorem Phase.code_lt (ph : Phase) : ph.code < 8 := by cases ph <;> decide

/-- A field of a word, by the word's number. -/
theorem field_eq_ofNat {w : Word} {lo n v : Nat} (h : w.toNat / 2 ^ lo % 2 ^ n = v % 2 ^ n) :
    w.extractLsb' lo n = BitVec.ofNat n v :=
  BitVec.eq_of_toNat_eq (by rw [BitVec.extractLsb'_toNat, Nat.shiftRight_eq_div_pow, BitVec.toNat_ofNat, h])

/-- A bit of a word, by the word's number. -/
theorem bit_eq_of_toNat {w : Word} {i : Nat} {f : Bool} (h : w.toNat / 2 ^ i % 2 = f.toNat) : w.getLsbD i = f := by
  rw [← BitVec.testBit_toNat, Nat.testBit_eq_decide_div_mod_eq, h]
  cases f <;> rfl

section
variable (s : State)

/-- The fields of STATUS fit their places. -/
theorem status_bounds : s.result.code < 4 ∧ s.phase.code < 8 ∧ s.final.toNat < 2 ∧ s.ibEnd.toNat < 2 ∧
    s.warnCrc.toNat < 2 ∧ s.warnSize.toNat < 2 :=
  ⟨s.result.code_lt, s.phase.code_lt, s.final.toNat_lt, s.ibEnd.toNat_lt, s.warnCrc.toNat_lt, s.warnSize.toNat_lt⟩

/-- The fields of STATUS do not overlap and stay below bit 18, so that the sum does not wrap. -/
theorem hrStatus_toNat : (hrStatus s).toNat < 2 ^ 18 ∧
    (hrStatus s).toNat = s.result.code + 2 ^ 4 * s.phase.code + 2 ^ 8 * s.final.toNat + 2 ^ 9 * s.ibEnd.toNat
      + 2 ^ 16 * s.warnCrc.toNat + 2 ^ 17 * s.warnSize.toNat := by
  have hbounds := status_bounds s
  rw [hrStatus, BitVec.toNat_ofNat]
  omega

/-- RESULT and PHASE in STATUS. -/
theorem hrStatus_codes : (hrStatus s).extractLsb' 0 2 = BitVec.ofNat 2 s.result.code ∧
    (hrStatus s).extractLsb' 4 3 = BitVec.ofNat 3 s.phase.code := by
  obtain ⟨-, hsum⟩ := hrStatus_toNat s
  have hbounds := status_bounds s
  exact ⟨field_eq_ofNat (by omega), field_eq_ofNat (by omega)⟩

/-- FINAL, IB_END, WARN_CRC and WARN_SIZE in STATUS. -/
theorem hrStatus_flags : (hrStatus s).getLsbD 8 = s.final ∧ (hrStatus s).getLsbD 9 = s.ibEnd ∧
    (hrStatus s).getLsbD 16 = s.warnCrc ∧ (hrStatus s).getLsbD 17 = s.warnSize := by
  obtain ⟨-, hsum⟩ := hrStatus_toNat s
  have hbounds := status_bounds s
  exact ⟨bit_eq_of_toNat (by omega), bit_eq_of_toNat (by omega), bit_eq_of_toNat (by omega), bit_eq_of_toNat (by omega)⟩

/-- The bits of STATUS that R42 does not list. -/
theorem hrStatus_unlisted {b : Nat} (hb : b ∉ [0, 1, 4, 5, 6, 8, 9, 16, 17]) : (hrStatus s).getLsbD b = false := by
  obtain ⟨hlt, hsum⟩ := hrStatus_toNat s
  refine bit_eq_of_toNat ?_
  rw [Bool.toNat_false]
  rcases Nat.lt_or_ge b 18 with h18 | h18
  · have hbounds := status_bounds s
    have hunlisted : b = 2 ∨ b = 3 ∨ b = 7 ∨ b = 10 ∨ b = 11 ∨ b = 12 ∨ b = 13 ∨ b = 14 ∨ b = 15 := by
      simp only [List.mem_cons, List.not_mem_nil, or_false] at hb
      omega
    rcases hunlisted with rfl | rfl | rfl | rfl | rfl | rfl | rfl | rfl | rfl <;> omega
  · rw [Nat.div_eq_of_lt (hlt.trans_le (Nat.pow_le_pow_right (by decide) h18))]

/-- ERR_CODE and ERR_DETAIL in ERR, and zeros above them. -/
theorem hrErr_fields : (hrErr s).extractLsb' 0 8 = s.errCode ∧ (hrErr s).extractLsb' 8 8 = s.errDetail ∧
    (hrErr s).extractLsb' 16 16 = 0 := by
  have hcode := s.errCode.isLt
  have hdetail := s.errDetail.isLt
  have hsum : (hrErr s).toNat = s.errCode.toNat + 2 ^ 8 * s.errDetail.toNat := by
    rw [hrErr, BitVec.toNat_ofNat]; omega
  refine ⟨?_, ?_, field_eq_ofNat (v := 0) (by omega)⟩
  · rw [field_eq_ofNat (v := s.errCode.toNat) (by omega), BitVec.ofNat_toNat, BitVec.setWidth_eq]
  · rw [field_eq_ofNat (v := s.errDetail.toNat) (by omega), BitVec.ofNat_toNat, BitVec.setWidth_eq]

/-- CONFIG reads as the mode's code. -/
theorem hostRegister_config : (hostRegister 2 s).toNat = s.cfgVerify.code := by
  show (BitVec.ofNat 32 s.cfgVerify.code).toNat = s.cfgVerify.code
  cases s.cfgVerify <;> rfl

end

/-- A number above 7 names no register (46_host_interface.md R478). -/
theorem hostRegister_above {r : Nat} (hr : 7 < r) (s : State) : hostRegister r s = 0 := by
  obtain ⟨k, rfl⟩ := Nat.exists_eq_add_of_le' hr
  rfl

theorem hostRegister_reset (r : Nat) : hostRegister r State.reset = 0 := by
  rcases Nat.lt_or_ge 7 r with hr | hr
  · exact hostRegister_above hr _
  · interval_cases r <;> rfl

/-- Settles O21: the transactions are `hRead` and `hOut`; STATUS and ERR are sums of fields that do not overlap. -/
theorem hostReads : Obligations.HostReads := by
  unfold Obligations.HostReads
  refine ⟨fun s ts r hc hh => ?_, fun s ts i hc hh => ?_, fun s => ?_, hostRegister_reset, by decide, by decide, by decide⟩
  · rw [step_txn hc hh]; rfl
  · rw [step_txn hc hh, hostTxn, hOut, getElem?_def]
  · obtain ⟨hresult, hphase⟩ := hrStatus_codes s
    obtain ⟨hfinal, hend, hcrc, hsize⟩ := hrStatus_flags s
    obtain ⟨hcode, hdetail, hzero⟩ := hrErr_fields s
    exact ⟨hresult, hphase, hfinal, hend, hcrc, hsize, fun b hb => hrStatus_unlisted s hb, hcode, hdetail, hzero,
      hostRegister_config s, rfl, rfl, rfl, rfl, BitVec.toNat_ofNat _ _, fun r hr => hostRegister_above hr s⟩

/-! ### Who writes the output: only the symbols of a body and a stored body end a block -/

/-- No unit of a block or of the trailer begins here. -/
def NoUnitBegins (t : State) : Prop := t.ctl ≠ .run .bh ∧ t.ctl ≠ .run .trailer

section
variable {α : Type} {s t u : State} {p : Slot}

theorem noUnitBegins_idle (h : t.ctl = .idle) : NoUnitBegins t := by
  unfold NoUnitBegins; rw [h]; exact ⟨Ctl.noConfusion, Ctl.noConfusion⟩

theorem noUnitBegins_goto (h : p ≠ .bh ∧ p ≠ .trailer) (s : State) : NoUnitBegins (goto p s) :=
  ⟨fun e => h.1 (Ctl.run.inj e), fun e => h.2 (Ctl.run.inj e)⟩

/-- A fatal error stops the core. -/
theorem noUnitBegins_fatal (e : FatalError) (s : State) : NoUnitBegins (settle (.fatal e s)) := noUnitBegins_idle rfl

/-- A read that stops an instruction stops the core, so only what follows a read that is ready matters. -/
theorem noUnitBegins_bind {r : Rd α} {f : α → State → Rd Unit} (h : ∀ v t, NoUnitBegins (settle (f v t))) :
    NoUnitBegins (settle (r.bind f)) := by
  cases r with
  | ready v t => exact h v t
  | needMoreOpen t => exact noUnitBegins_idle rfl
  | needMoreClosed t => exact noUnitBegins_idle rfl
  | fatal e t => exact noUnitBegins_idle rfl

theorem noUnitBegins_nextCodeLength (s : State) : NoUnitBegins (settle (nextCodeLength s)) := by
  unfold nextCodeLength
  split
  · exact noUnitBegins_goto (by decide) s
  · exact noUnitBegins_bind fun _ _ => noUnitBegins_bind fun _ _ => noUnitBegins_goto (by decide) _

theorem noUnitBegins_appendRun (r v : Nat) (s : State) : NoUnitBegins (settle (appendRun r v s)) := by
  unfold appendRun
  split
  · exact noUnitBegins_fatal _ s
  · exact noUnitBegins_nextCodeLength _

theorem noUnitBegins_clRep (s : State) (h : exec .clRep s = .next t) : NoUnitBegins t := by
  cases h
  split
  · exact noUnitBegins_fatal _ s
  · exact noUnitBegins_bind fun e u => noUnitBegins_appendRun (3 + e) _ u

theorem noUnitBegins_distanceSymbol (d : Nat) (s : State) : NoUnitBegins (settle (distanceSymbol d s)) :=
  noUnitBegins_bind fun _ _ => noUnitBegins_bind fun _ u => noUnitBegins_goto (by decide) u

/-- Of a block's instructions, only those of its body end it (42_deflate_blocks.md R204; 43_deflate_symbols.md R301). -/
theorem exec_noUnitBegins {i : Instr} (hp : slotPhase (slotOf i) = .block) (hll : slotOf i ≠ .ll)
    (hst : slotOf i ≠ .stBody) (h : exec i s = .next t) : NoUnitBegins t := by
  cases i with
  | gzId | gzCm | gzFlg | gzFixed | gzFextra | gzFname | gzFcomment | gzFhcrc | gzFtext | gzFlgRsv | gzTrailer =>
    exact absurd hp (by decide)
  | lit | eob | illLen
  | len257 | len258 | len259 | len260 | len261 | len262 | len263 | len264 | len265 | len266 | len267 | len268 | len269
  | len270 | len271 | len272 | len273 | len274 | len275 | len276 | len277 | len278 | len279 | len280 | len281 | len282
  | len283 | len284 | len285 => exact absurd rfl hll
  | stBody => exact absurd rfl hst
  | blkStored f => cases h; exact noUnitBegins_goto (by decide) _
  | blkFixed f => cases h; exact noUnitBegins_goto (by decide) _
  | blkDynamic f => cases h; exact noUnitBegins_goto (by decide) _
  | blkReserved f => cases h; exact noUnitBegins_fatal _ _
  | dhCounts =>
    cases h
    exact noUnitBegins_bind fun _ _ => noUnitBegins_bind fun _ _ => noUnitBegins_bind fun _ _ =>
      noUnitBegins_goto (by decide) _
  | dhCll =>
    cases h
    exact noUnitBegins_bind fun _ _ => noUnitBegins_bind fun _ _ => noUnitBegins_goto (by decide) _
  | clLen n => cases h; exact noUnitBegins_nextCodeLength _
  | clRep => exact noUnitBegins_clRep s h
  | clZero3 => cases h; exact noUnitBegins_bind fun e u => noUnitBegins_appendRun (3 + e) 0 u
  | clZero11 => cases h; exact noUnitBegins_bind fun e u => noUnitBegins_appendRun (11 + e) 0 u
  | dist0 | dist1 | dist2 | dist3 | dist4 | dist5 | dist6 | dist7 | dist8 | dist9 | dist10 | dist11 | dist12 | dist13
  | dist14 | dist15 | dist16 | dist17 | dist18 | dist19 | dist20 | dist21 | dist22 | dist23 | dist24 | dist25 | dist26
  | dist27 | dist28 | dist29 => cases h; exact noUnitBegins_distanceSymbol _ s
  | illDist n => cases h; exact noUnitBegins_fatal _ s

/-- A step of the running core executes the instruction it fetched there, or the fetch ends the run. -/
theorem step_run_fetch (hc : s.ctl = .run p) (h : step s = .next t) :
    (∃ i u, fetch p s = .ready (.ok i) u ∧ slotOf i = p ∧ exec i u = .next t) ∨
    t = suspend (fetch p s).state ∨ ∃ e, t = errorEntry e (fetch p s).state := by
  have hf := fetch_sat p s
  simp only [step, hc] at h
  cases hr : fetch p s with
  | ready r u =>
    rw [hr] at h hf
    cases r with
    | ok i =>
      obtain ⟨-, w, hw, -⟩ := hf
      exact .inl ⟨i, u, rfl, (decode_sound hw.symm).2, h⟩
    | error e => cases h
  | needMoreOpen u => rw [hr] at h; cases h; exact .inr (.inl rfl)
  | needMoreClosed u => rw [hr] at h; cases h; exact .inr (.inr ⟨.truncated, rfl⟩)
  | fatal e u => rw [hr] at h; cases h; exact .inr (.inr ⟨e, rfl⟩)

/-- An instruction that does not commit a block leaves the committed results (20_memory.md R76). -/
theorem CoreNext.committedKept_or_commit (h : CoreNext p s t) :
    committedKept s t ∨ ∃ u, Within p s u ∧ slotPhase p = .block ∧ t = commitBlock u := by
  cases h with
  | suspended hu => exact .inl hu.committedKept
  | failed e hu => exact .inl hu.committedKept
  | onward hu => exact .inl hu.committedKept
  | headerDone hu _ => exact .inl hu.committedKept
  | blockDone hu hp => exact .inr ⟨_, hu, hp, rfl⟩
  | trailerDone hu _ => exact .inl hu.committedKept

theorem commitBlock_begins (s : State) : (commitBlock s).ctl = .run .bh ∨ (commitBlock s).ctl = .run .trailer := by
  rw [commitBlock_ctl, firstSlot_afterBlock]
  cases s.loc.bfinal
  · exact .inl rfl
  · exact .inr rfl

/-- A block ends at a literal/length symbol or at a stored body. -/
theorem place_of_commitBlock (hc : s.ctl = .run p) (h : step s = .next (commitBlock u))
    (hp : slotPhase p = .block) : p = .ll ∨ p = .stBody := by
  have hbegins := commitBlock_begins u
  rcases step_run_fetch hc h with ⟨i, v, -, rfl, hexec⟩ | hsuspend | ⟨e, herror⟩
  · by_contra hplace
    obtain ⟨hll, hst⟩ := not_or.mp hplace
    obtain ⟨hbh, htrailer⟩ := exec_noUnitBegins hp hll hst hexec
    exact hbegins.elim hbh htrailer
  · rw [hsuspend] at hbegins; rcases hbegins with hb | hb <;> cases hb
  · rw [herror] at hbegins; rcases hbegins with hb | hb <;> cases hb

/-- What the commit of a block writes to OUT (42_deflate_blocks.md R201). -/
theorem Within.commitBlock_out (h : Within p s u) :
    (commitBlock u).out = s.out ++ (commitBlock u).win.drop s.snapWlen := by
  have hout : u.out = s.out := h.kept State.out fun _ => rfl
  have hlen : u.snapWlen = s.snapWlen := h.kept State.snapWlen fun _ => rfl
  rw [Machine.commitBlock_out, newBytes, hout, hlen, commitBlock_win]

end

/-- Settles O58: an instruction that changes a committed result is the commit of a block, and the host's transactions
change none. -/
theorem outputIsAppendOnly : Obligations.OutputIsAppendOnly := by
  unfold Obligations.OutputIsAppendOnly
  intro s t hreset h
  have hkept : committedKept s t → s.out <+: t.out := fun ⟨hout, _⟩ => hout ▸ List.prefix_rfl
  cases hc : s.ctl with
  | idle =>
    rcases step_idle_cases hc h with ⟨ts, hh, -⟩ | htxn
    · exact absurd hh (hreset ts hc)
    · exact ⟨hkept htxn.committed, fun hne => absurd htxn.committed hne⟩
  | run p =>
    rcases (step_run_cases hc h).committedKept_or_commit with hcommitted | ⟨u, hu, hp, rfl⟩
    · exact ⟨hkept hcommitted, fun hne => absurd hcommitted hne⟩
    · refine ⟨hu.commitBlock_out ▸ List.prefix_append _ _, fun _ => ⟨?_, hu.commitBlock_out, commitBlock_begins u⟩⟩
      rcases place_of_commitBlock hc h hp with rfl | rfl
      · exact .inl rfl
      · exact .inr rfl

/-! ### The stream cursor: no read and no instruction moves POS back (10_state.md R25) -/

/-- A read that leaves POS at or after where it is in `s`, whatever its outcome. -/
def Rd.Forward {α : Type} (s : State) (r : Rd α) : Prop := pos s ≤ pos r.state

section
variable {α β : Type} {s t u : State} {p : Slot}

/-- The rule of sequence. -/
theorem Rd.Forward.bind {r : Rd α} {f : α → State → Rd β} (hr : r.Forward s) (hf : ∀ v t, (f v t).Forward t) :
    (r.bind f).Forward s := by
  cases r with
  | ready v t => exact Nat.le_trans hr (hf v t)
  | needMoreOpen t => exact hr
  | needMoreClosed t => exact hr
  | fatal e t => exact hr

theorem Rd.Forward.ite {c : Prop} [Decidable c] {a b : Rd α} (ha : a.Forward s) (hb : b.Forward s) :
    (if c then a else b).Forward s := by
  split
  · exact ha
  · exact hb

theorem underflow_forward (s : State) : (underflow s : Rd α).Forward s := by
  unfold Rd.Forward; rw [state_underflow]

theorem pos_taken (n : Nat) (s : State) : pos s ≤ pos (taken n s) := by
  simp only [pos, taken_ibOff, taken_brLen]; omega

/-- A byte pulled into BR_BUF is not yet consumed (40_input_bitreader.md R139). -/
theorem pos_brPush_taken (b : Byte) (s : State) : pos (brPush b (taken 1 s)) = pos s := by
  simp only [pos, brPush_ibOff, brPush_brLen, taken_ibOff, taken_brLen]; omega

theorem pos_brDrop (n : Nat) (s : State) : pos s ≤ pos (brDrop n s) := by
  simp only [pos, brDrop_ibOff, brDrop_brLen]; omega

theorem pos_copyMatch (n dist : Nat) (s : State) : pos (copyMatch n dist s) = pos s := by
  rw [copyMatch_eq]; rfl

theorem ibTake_forward (s : State) : (ibTake s).Forward s := by
  rcases Nat.eq_zero_or_pos (avail s) with h0 | h1
  · rw [ibTake_underflow h0]; exact underflow_forward s
  · rw [ibTake_ready h1]; exact pos_taken 1 s

theorem ibSkip_forward (n : Nat) (s : State) : (ibSkip n s).Forward s := by
  induction n generalizing s with
  | zero => exact Nat.le_refl _
  | succ n ih => exact (ibTake_forward s).bind fun _ t => ih t

theorem ibSkipNulLoop_forward (fuel : Nat) (s : State) : (ibSkipNulLoop fuel s).Forward s := by
  induction fuel generalizing s with
  | zero => exact underflow_forward s
  | succ fuel ih => exact (ibTake_forward s).bind fun _ t => .ite (Nat.le_refl _) (ih t)

theorem ibSkipNul_forward (s : State) : (ibSkipNul s).Forward s := ibSkipNulLoop_forward _ s

theorem brFillLoop_forward (fuel n : Nat) (s : State) : (brFillLoop fuel n s).Forward s := by
  induction fuel generalizing s with
  | zero => exact Nat.le_refl _
  | succ fuel ih =>
    refine .ite ?_ (Nat.le_refl _)
    rcases Nat.eq_zero_or_pos (avail s) with h0 | h1
    · rw [ibTake_underflow h0, bind_underflow]; exact underflow_forward s
    · rw [ibTake_ready h1]
      exact Nat.le_trans (pos_brPush_taken _ s).ge (ih _)

theorem brPeek_forward (n : Nat) (s : State) : (brPeek n s).Forward s :=
  Rd.Forward.bind (brFillLoop_forward n n s) fun _ _ => Nat.le_refl _

theorem brShift_forward (n : Nat) (s : State) : (brShift n s).Forward s :=
  Rd.Forward.bind (brFillLoop_forward n n s) fun _ t => pos_brDrop n t

/-- A read from the next byte boundary on. -/
theorem Rd.Forward.aligned {r : Rd α} (h : r.Forward (brAlign s)) : r.Forward s := Nat.le_trans (pos_brDrop _ s) h

theorem brWordLe_forward (n : Nat) (s : State) : (brWordLe n s).Forward s := by
  induction n generalizing s with
  | zero => exact Nat.le_refl _
  | succ n ih => exact (brShift_forward 8 s).bind fun _ t => (ih t).bind fun _ _ => Nat.le_refl _

theorem copyStored_forward (n : Nat) (s : State) : (copyStored n s).Forward s := by
  induction n generalizing s with
  | zero => exact Nat.le_refl _
  | succ n ih => exact (brShift_forward 8 s).bind fun b t => ih (winWrite (BitVec.ofNat 8 b) t)

theorem copyBackRef_forward (len dist : Nat) (s : State) : (copyBackRef len dist s).Forward s :=
  .ite (Nat.le_refl _) (pos_copyMatch len dist s).ge

theorem decodeSymbol_forward (t : Table) (s : State) : (decodeSymbol t s).Forward s :=
  (brPeek_forward t.m s).bind fun _ u => .ite (Nat.le_refl _) (pos_brDrop _ u)

theorem lengthValue_forward (k : Nat) (s : State) : (lengthValue k s).Forward s :=
  (brShift_forward _ s).bind fun _ _ => Nat.le_refl _

theorem distanceValue_forward (d : Nat) (s : State) : (distanceValue d s).Forward s :=
  (brShift_forward _ s).bind fun _ _ => Nat.le_refl _

theorem buildTable_forward (lens : List Nat) (s : State) : (buildTable lens s).Forward s := by
  unfold buildTable
  split
  · exact Nat.le_refl _
  · exact Nat.le_refl _

theorem readCll_forward (ps cll : List Nat) (s : State) : (readCll ps cll s).Forward s := by
  induction ps generalizing cll s with
  | nil => exact Nat.le_refl _
  | cons k ps ih => exact (brShift_forward 3 s).bind fun v t => ih (cll.set k v) t

theorem nextCodeLength_forward (s : State) : (nextCodeLength s).Forward s :=
  .ite (Nat.le_refl _) <| (buildTable_forward _ s).bind fun _ t => (buildTable_forward _ t).bind fun _ _ => Nat.le_refl _

theorem appendRun_forward (r v : Nat) (s : State) : (appendRun r v s).Forward s :=
  .ite (Nat.le_refl _) (nextCodeLength_forward (appendLens (List.replicate r v) s))

theorem verify_forward (c sz : Word) (h : pos s ≤ pos u) : (verify c sz u).Forward s := by
  unfold verify
  split
  · exact h
  · exact h
  · exact .ite h (.ite h h)

theorem pos_afterComment (s : State) : pos (afterComment s) = pos s := by
  unfold afterComment; split <;> rfl

theorem pos_afterName (s : State) : pos (afterName s) = pos s := by
  unfold afterName
  split
  · rfl
  · exact pos_afterComment s

theorem pos_afterExtra (s : State) : pos (afterExtra s) = pos s := by
  unfold afterExtra
  split
  · rfl
  · exact pos_afterName s

theorem pos_afterFixed (s : State) : pos (afterFixed s) = pos s := by
  unfold afterFixed
  split
  · rfl
  · exact pos_afterExtra s

/-- An instruction that reads forward from `s`. -/
def ReadsForward (s : State) (o : Host.Outcome State Fault Refusal) : Prop := ∃ r, o = finish r ∧ r.Forward s

theorem Rd.Forward.finishes {r : Rd Unit} (h : r.Forward s) : ReadsForward s (finish r) := ⟨r, rfl, h⟩

theorem lengthSymbol_forward (k : Nat) (s : State) : (lengthSymbol k s).Forward s :=
  (lengthValue_forward k s).bind fun _ _ => Nat.le_refl _

theorem distanceSymbol_forward (d : Nat) (s : State) : (distanceSymbol d s).Forward s :=
  (distanceValue_forward d s).bind fun dist t => (copyBackRef_forward t.loc.len dist t).bind fun _ _ => Nat.le_refl _

theorem execGzId_forward (s : State) : ReadsForward s (execGzId s) :=
  Rd.Forward.finishes <| (ibTake_forward s).bind fun _ t => (ibTake_forward t).bind fun _ _ =>
    .ite (Nat.le_refl _) (Nat.le_refl _)

theorem execGzFextra_forward (s : State) : ReadsForward s (execGzFextra s) :=
  Rd.Forward.finishes <| (ibTake_forward s).bind fun _ t => (ibTake_forward t).bind fun _ u =>
    (ibSkip_forward _ u).bind fun _ v => (pos_afterExtra v).ge

theorem execStBody_forward (s : State) : ReadsForward s (execStBody s) :=
  Rd.Forward.finishes <| .aligned <| (brShift_forward 16 _).bind fun len t => (brShift_forward 16 t).bind fun _ u =>
    .ite (Nat.le_refl _) <| (copyStored_forward len u).bind fun _ _ => Nat.le_refl _

theorem execDhCounts_forward (s : State) : ReadsForward s (execDhCounts s) :=
  Rd.Forward.finishes <| (brShift_forward 5 s).bind fun _ t => (brShift_forward 5 t).bind fun _ u =>
    (brShift_forward 4 u).bind fun _ _ => Nat.le_refl _

theorem execDhCll_forward (s : State) : ReadsForward s (execDhCll s) :=
  Rd.Forward.finishes <| (readCll_forward _ _ s).bind fun cll t => (buildTable_forward cll t).bind fun _ _ => Nat.le_refl _

theorem execClRep_forward (s : State) : ReadsForward s (execClRep s) :=
  Rd.Forward.finishes <| .ite (Nat.le_refl _) <| (brShift_forward 2 s).bind fun _ t => appendRun_forward _ _ t

theorem execGzTrailer_forward (s : State) : ReadsForward s (execGzTrailer s) :=
  Rd.Forward.finishes <| .aligned <| (brWordLe_forward 4 _).bind fun _ t => (brWordLe_forward 4 t).bind fun _ u =>
    Rd.Forward.bind (verify_forward _ _ (Nat.le_refl (pos u))) fun _ _ => Nat.le_refl _

/-- Every instruction reads forward: what it consumes it never gives back before its outcome is settled. -/
theorem exec_forward (i : Instr) (s : State) : ReadsForward s (exec i s) := by
  cases i with
  | gzId => exact execGzId_forward s
  | gzCm => exact Rd.Forward.finishes <| (ibTake_forward s).bind fun _ _ => .ite (Nat.le_refl _) (Nat.le_refl _)
  | gzFlg => exact Rd.Forward.finishes <| (ibTake_forward s).bind fun _ _ => Nat.le_refl _
  | gzFtext | gzFlgRsv => exact ⟨_, rfl, Nat.le_refl _⟩
  | gzFixed => exact Rd.Forward.finishes <| (ibSkip_forward 6 s).bind fun _ t => (pos_afterFixed t).ge
  | gzFextra => exact execGzFextra_forward s
  | gzFname => exact Rd.Forward.finishes <| (ibSkipNul_forward s).bind fun _ t => (pos_afterName t).ge
  | gzFcomment => exact Rd.Forward.finishes <| (ibSkipNul_forward s).bind fun _ t => (pos_afterComment t).ge
  | gzFhcrc => exact Rd.Forward.finishes <| (ibSkip_forward 2 s).bind fun _ _ => Nat.le_refl _
  | blkStored | blkFixed | blkDynamic | blkReserved => exact ⟨_, rfl, Nat.le_refl _⟩
  | stBody => exact execStBody_forward s
  | dhCounts => exact execDhCounts_forward s
  | dhCll => exact execDhCll_forward s
  | clLen n => exact Rd.Forward.finishes (nextCodeLength_forward (appendLens [n] s))
  | clRep => exact execClRep_forward s
  | clZero3 => exact Rd.Forward.finishes <| (brShift_forward 3 s).bind fun _ t => appendRun_forward _ _ t
  | clZero11 => exact Rd.Forward.finishes <| (brShift_forward 7 s).bind fun _ t => appendRun_forward _ _ t
  | lit | eob | illLen | illDist => exact ⟨_, rfl, Nat.le_refl _⟩
  | len257 | len258 | len259 | len260 | len261 | len262 | len263 | len264 | len265 | len266 | len267 | len268 | len269
  | len270 | len271 | len272 | len273 | len274 | len275 | len276 | len277 | len278 | len279 | len280 | len281 | len282
  | len283 | len284 | len285 => exact Rd.Forward.finishes (lengthSymbol_forward _ s)
  | dist0 | dist1 | dist2 | dist3 | dist4 | dist5 | dist6 | dist7 | dist8 | dist9 | dist10 | dist11 | dist12 | dist13
  | dist14 | dist15 | dist16 | dist17 | dist18 | dist19 | dist20 | dist21 | dist22 | dist23 | dist24 | dist25 | dist26
  | dist27 | dist28 | dist29 => exact Rd.Forward.finishes (distanceSymbol_forward _ s)
  | gzTrailer => exact execGzTrailer_forward s

theorem fetch_forward (p : Slot) (s : State) : (fetch p s).Forward s := by
  cases p with
  | bh => exact (brShift_forward 1 s).bind fun _ t => (brShift_forward 2 t).bind fun _ _ => Nat.le_refl _
  | cl | ll | d => exact (decodeSymbol_forward _ s).bind fun _ _ => Nat.le_refl _
  | gzId | gzCm | gzFlg | gzFtext | gzFlgRsv | gzFixed | gzFextra | gzFname | gzFcomment | gzFhcrc => exact Nat.le_refl _
  | stBody | dhCounts | dhCll | trailer => exact Nat.le_refl _

/-- An outcome that is no suspension stands where the reads left POS. -/
theorem pos_settle {r : Rd Unit} (h : notSuspended (settle r)) : pos (settle r) = pos r.state := by
  cases r with
  | ready _ t => rfl
  | needMoreOpen t => exact absurd rfl (h rfl)
  | needMoreClosed t => rfl
  | fatal e t => rfl

theorem pos_le_of_exec {i : Instr} (h : exec i s = .next t) (hn : notSuspended t) : pos s ≤ pos t := by
  obtain ⟨r, hr, hforward⟩ := exec_forward i s
  rw [h] at hr; cases hr
  exact hforward.trans_eq (pos_settle hn).symm

/-- A step that does not suspend leaves POS where its fetch left it, or after. -/
theorem pos_fetch_le_of_step (hc : s.ctl = .run p) (h : step s = .next t) (hn : notSuspended t) :
    pos (fetch p s).state ≤ pos t := by
  rcases step_run_fetch hc h with ⟨i, u, hfetch, -, hexec⟩ | rfl | ⟨e, rfl⟩
  · rw [hfetch]; exact pos_le_of_exec hexec hn
  · exact absurd rfl (hn rfl)
  · exact Nat.le_refl _

/-- At a place of a table the fetch is a `Decode` with it (41_huffman_table.md R176). -/
theorem fetch_of_tableAt {T : Table} (hT : tableAt p s = some T) :
    fetch p s = (decodeSymbol T s).bind fun w t => .ready (decode p w) t := by
  cases p with
  | cl | ll | d => cases hT; rfl
  | gzId | gzCm | gzFlg | gzFtext | gzFlgRsv | gzFixed | gzFextra | gzFname | gzFcomment | gzFhcrc => cases hT
  | bh | stBody | dhCounts | dhCll | trailer => cases hT

theorem UnitOk.tableAt_ok {T : Table} (h : UnitOk s) (hT : tableAt p s = some T) : ∃ n, T.Ok n := by
  cases p with
  | cl => cases hT; exact ⟨19, h.clT_ok⟩
  | ll => cases hT; exact ⟨288, h.litTable_ok⟩
  | d => cases hT; exact ⟨32, h.distTable_ok⟩
  | gzId | gzCm | gzFlg | gzFtext | gzFlgRsv | gzFixed | gzFextra | gzFname | gzFcomment | gzFhcrc => cases hT
  | bh | stBody | dhCounts | dhCll | trailer => cases hT

/-- A slot of a table holds a code length up to the table's longest. -/
theorem Table.Ok.codeLen_le {n : Nat} {T : Table} (h : T.Ok n) (i : Nat) : T.codeLen.getD i 0 ≤ T.m := by
  obtain ⟨-, -, -, hlen, -⟩ := h
  rcases Nat.lt_or_ge i T.codeLen.length with hi | hi
  · rw [List.getD_eq_getElem _ _ hi]; exact hlen _ (List.getElem_mem hi)
  · rw [List.getD_eq_default _ _ hi]; exact Nat.zero_le _

/-- A symbol that is decoded consumes at least the one bit that its code has (41_huffman_table.md R176). -/
theorem pos_lt_of_decodeSymbol {T : Table} {n w : Nat} (hs : UnitOk s) (hT : T.Ok n)
    (h : decodeSymbol T s = .ready w u) : pos s < pos u := by
  obtain ⟨⟨-, -, hbits, -⟩, -, hpos, -⟩ := hs
  have hm : T.m ≤ 16 := hT.1.trans (by decide)
  rcases Nat.lt_or_ge (availBits s) T.m with hshort | hthere
  · rw [decodeSymbol_underflow hbits hm hshort] at h
    unfold underflow at h; split at h <;> cases h
  · have hle := hT.codeLen_le (pending s % 2 ^ T.m)
    have hfull := le_peeked T.m s
    by_cases hc : T.codeLen.getD (pending s % 2 ^ T.m) 0 = 0
    · rw [decodeSymbol_unassigned hbits hm hthere hc] at h; cases h
    · rw [decodeSymbol, brPeek_ready hbits hm hthere, bind_ready, if_neg hc] at h
      cases h
      simp only [pos, peeked_eq, brDrop_ibOff, brDrop_brLen, pulled_ibOff, pulled_brLen]
      omega

/-- At a place of a table a step that raises no error and does not suspend moves POS by at least one bit. -/
theorem pos_lt_of_symbol {T : Table} (hs : UnitOk s) (hT : tableAt p s = some T) (hc : s.ctl = .run p)
    (h : step s = .next t) (hn : notSuspended t) (herror : t.phase ≠ .error) : pos s < pos t := by
  obtain ⟨n, hok⟩ := hs.tableAt_ok hT
  rcases step_run_fetch hc h with ⟨i, u, hfetch, -, hexec⟩ | rfl | ⟨e, rfl⟩
  · rw [fetch_of_tableAt hT] at hfetch
    obtain ⟨w, v, hdecode, hv⟩ := bind_eq_ready hfetch
    obtain ⟨-, rfl⟩ := Rd.ready.inj hv
    exact (pos_lt_of_decodeSymbol hs hok hdecode).trans_le (pos_le_of_exec hexec hn)
  · exact absurd rfl (hn rfl)
  · exact absurd rfl herror

/-- A suspension puts the cursor back at the unit's snapshot (46_host_interface.md R477). -/
theorem CoreNext.cursor_of_suspended (h : CoreNext p s t) (hsusp : ¬ notSuspended t) :
    t.ibOff = s.snapOff ∧ t.brLen = s.snapLen := by
  obtain ⟨hidle, hresult⟩ := Classical.not_imp.mp hsusp
  rw [not_not] at hresult
  cases h with
  | suspended hu => exact ⟨hu.kept State.snapOff fun _ => rfl, hu.kept State.snapLen fun _ => rfl⟩
  | failed e _ => cases hresult
  | onward _ _ _ _ => cases hidle
  | headerDone _ _ => cases hidle
  | @blockDone u _ _ => rcases commitBlock_begins u with hb | hb <;> cases hb.symm.trans hidle
  | trailerDone _ _ => cases hresult

end

/-- Settles O60: no read moves POS back (`exec_forward`, `fetch_forward`), a decoded symbol consumes its code
(`pos_lt_of_decodeSymbol`), and a suspension restores the snapshot. -/
theorem cursorMovesForward : Obligations.CursorMovesForward := by
  unfold Obligations.CursorMovesForward
  refine ⟨fun s t p hs hc h hn => ?_, fun s t p hs hc h hsusp => ?_⟩
  · obtain ⟨-, -, -, hle, -⟩ := step_structOk hs h
    refine ⟨Nat.le_trans (fetch_forward p s) (pos_fetch_le_of_step hc h hn), hle, fun hT herror => ?_⟩
    obtain ⟨T, hT⟩ := Option.ne_none_iff_exists'.mp hT
    exact pos_lt_of_symbol (structOk_iff.mp hs).1 hT hc h hn herror
  · obtain ⟨-, -, -, -, -, hsnap⟩ := hs
    obtain ⟨hoff, hlen⟩ := (step_run_cases hc h).cursor_of_suspended hsusp
    exact ⟨by rw [pos, hoff, hlen], hoff ▸ hsnap (by rw [hc]; exact Ctl.noConfusion)⟩

end Sys2Proof.Machine
end

section
/-! ## The memory family (20_memory.md): what a unit leaves of OUT and WIN, what the reads never touch, and suspension -/

namespace Sys2Proof.Machine

/-- Settles O14: `step_windowOk`, by what a step can do (`step_cases`). -/
theorem windowIsKept : Obligations.WindowIsKept := by
  unfold Obligations.WindowIsKept
  exact fun _ _ hw h => step_windowOk hw h

/-! ### What the reads of a unit neither look at nor write

A read commutes with the replacement of fields that it does not look at, and so it leaves these fields as they were. -/

/-- `s` with RESULT, the host's last answer, the trailer's registers and the warnings of `d`, and with the window `w` where
one is given. -/
def masked (d : State) (w : Option (List Byte)) (s : State) : State :=
  { s with
    result := d.result, reply := d.reply, trlCrc := d.trlCrc, trlIsize := d.trlIsize, warnCrc := d.warnCrc,
    warnSize := d.warnSize, win := w.getD s.win }

theorem masked_self (s : State) : masked s none s = s := rfl

/-- A read's outcome with another state. -/
def Rd.mapState {α : Type} (f : State → State) : Rd α → Rd α
  | .ready v s => .ready v (f s)
  | .needMoreOpen s => .needMoreOpen (f s)
  | .needMoreClosed s => .needMoreClosed (f s)
  | .fatal e s => .fatal e (f s)

/-- `r'` is the outcome `r` but for what `f` replaces. -/
def Rd.Mapped {α : Type} (f : State → State) (r r' : Rd α) : Prop := r' = r.mapState f

section
variable {α β : Type} {f : State → State}

/-- The rule of sequence. -/
theorem Rd.Mapped.bind {r r' : Rd α} {g g' : α → State → Rd β} (hr : r.Mapped f r')
    (hg : ∀ v t, (g v t).Mapped f (g' v (f t))) : (r.bind g).Mapped f (r'.bind g') := by
  subst hr
  cases r with
  | ready v t => exact hg v t
  | needMoreOpen t => rfl
  | needMoreClosed t => rfl
  | fatal e t => rfl

theorem Rd.Mapped.ite {c : Prop} [Decidable c] {a b a' b' : Rd α} (ha : a.Mapped f a') (hb : b.Mapped f b') :
    (if c then a else b).Mapped f (if c then a' else b') := by
  split
  · exact ha
  · exact hb

end

section
variable {α : Type} {d : State} {w : Option (List Byte)}

theorem underflow_masked (s : State) : (underflow s : Rd α).Mapped (masked d w) (underflow (masked d w s)) :=
  .ite rfl rfl

theorem ibTake_masked (s : State) : (ibTake s).Mapped (masked d w) (ibTake (masked d w s)) :=
  .ite rfl (underflow_masked s)

theorem ibSkip_masked (n : Nat) (s : State) : (ibSkip n s).Mapped (masked d w) (ibSkip n (masked d w s)) := by
  induction n generalizing s with
  | zero => rfl
  | succ n ih => exact (ibTake_masked s).bind fun _ t => ih t

theorem ibSkipNulLoop_masked (fuel : Nat) (s : State) :
    (ibSkipNulLoop fuel s).Mapped (masked d w) (ibSkipNulLoop fuel (masked d w s)) := by
  induction fuel generalizing s with
  | zero => exact underflow_masked s
  | succ fuel ih => exact (ibTake_masked s).bind fun _ t => .ite rfl (ih t)

theorem ibSkipNul_masked (s : State) : (ibSkipNul s).Mapped (masked d w) (ibSkipNul (masked d w s)) :=
  ibSkipNulLoop_masked (avail s) s

theorem brFillLoop_masked (fuel n : Nat) (s : State) :
    (brFillLoop fuel n s).Mapped (masked d w) (brFillLoop fuel n (masked d w s)) := by
  induction fuel generalizing s with
  | zero => rfl
  | succ fuel ih => exact .ite ((ibTake_masked s).bind fun b t => ih (brPush b t)) rfl

theorem brPeek_masked (n : Nat) (s : State) : (brPeek n s).Mapped (masked d w) (brPeek n (masked d w s)) :=
  (brFillLoop_masked n n s).bind fun _ _ => rfl

theorem brShift_masked (n : Nat) (s : State) : (brShift n s).Mapped (masked d w) (brShift n (masked d w s)) :=
  (brFillLoop_masked n n s).bind fun _ _ => rfl

theorem brWordLe_masked (n : Nat) (s : State) : (brWordLe n s).Mapped (masked d w) (brWordLe n (masked d w s)) := by
  induction n generalizing s with
  | zero => rfl
  | succ n ih => exact (brShift_masked 8 s).bind fun _ t => (ih t).bind fun _ _ => rfl

theorem decodeSymbol_masked (t : Table) (s : State) :
    (decodeSymbol t s).Mapped (masked d w) (decodeSymbol t (masked d w s)) :=
  (brPeek_masked t.m s).bind fun _ _ => .ite rfl rfl

theorem lengthValue_masked (k : Nat) (s : State) :
    (lengthValue k s).Mapped (masked d w) (lengthValue k (masked d w s)) :=
  (brShift_masked _ s).bind fun _ _ => rfl

theorem distanceValue_masked (k : Nat) (s : State) :
    (distanceValue k s).Mapped (masked d w) (distanceValue k (masked d w s)) :=
  (brShift_masked _ s).bind fun _ _ => rfl

theorem buildTable_masked (lens : List Nat) (s : State) :
    (buildTable lens s).Mapped (masked d w) (buildTable lens (masked d w s)) := by
  unfold buildTable
  cases build lens with
  | ok t => rfl
  | error e => rfl

theorem readCll_masked (ps cll : List Nat) (s : State) :
    (readCll ps cll s).Mapped (masked d w) (readCll ps cll (masked d w s)) := by
  induction ps generalizing cll s with
  | nil => rfl
  | cons k ps ih => exact (brShift_masked 3 s).bind fun v t => ih (cll.set k v) t

theorem nextCodeLength_masked (s : State) :
    (nextCodeLength s).Mapped (masked d w) (nextCodeLength (masked d w s)) :=
  .ite rfl <| (buildTable_masked _ s).bind fun _ t => (buildTable_masked _ t).bind fun _ _ => rfl

theorem appendRun_masked (r v : Nat) (s : State) :
    (appendRun r v s).Mapped (masked d w) (appendRun r v (masked d w s)) :=
  .ite rfl (nextCodeLength_masked (appendLens (List.replicate r v) s))

theorem fetch_masked (p : Slot) (s : State) : (fetch p s).Mapped (masked d w) (fetch p (masked d w s)) := by
  cases p with
  | bh => exact (brShift_masked 1 s).bind fun _ t => (brShift_masked 2 t).bind fun _ _ => rfl
  | cl | ll | d => exact (decodeSymbol_masked _ s).bind fun _ _ => rfl
  | gzId | gzCm | gzFlg | gzFtext | gzFlgRsv | gzFixed | gzFextra | gzFname | gzFcomment | gzFhcrc => rfl
  | stBody | dhCounts | dhCll | trailer => rfl

/-! The copies look at the window and write it, and a unit that begins measures it. -/

theorem copyMatch_masked (n dist : Nat) (s : State) :
    copyMatch n dist (masked d none s) = masked d none (copyMatch n dist s) := by
  induction n generalizing s with
  | zero => rfl
  | succ n ih => exact ih (winWrite (winRead dist s) s)

theorem copyBackRef_masked (len dist : Nat) (s : State) :
    (copyBackRef len dist s).Mapped (masked d none) (copyBackRef len dist (masked d none s)) :=
  .ite rfl (congrArg (Rd.ready ()) (copyMatch_masked len dist s))

theorem copyStored_masked (n : Nat) (s : State) :
    (copyStored n s).Mapped (masked d none) (copyStored n (masked d none s)) := by
  induction n generalizing s with
  | zero => rfl
  | succ n ih => exact (brShift_masked 8 s).bind fun b t => ih (winWrite (BitVec.ofNat 8 b) t)

theorem distanceSymbol_masked (k : Nat) (s : State) :
    (distanceSymbol k s).Mapped (masked d none) (distanceSymbol k (masked d none s)) :=
  (distanceValue_masked k s).bind fun dist t => (copyBackRef_masked t.loc.len dist t).bind fun _ _ => rfl

/-- A choice between two states that commute with a replacement commutes with it. -/
theorem ite_mapped {c : Prop} [Decidable c] {f : State → State} {a b a' b' : State} (ha : a' = f a) (hb : b' = f b) :
    (if c then a' else b') = f (if c then a else b) := by
  split
  · exact ha
  · exact hb

theorem afterComment_masked (s : State) : afterComment (masked d none s) = masked d none (afterComment s) :=
  ite_mapped rfl rfl

theorem afterName_masked (s : State) : afterName (masked d none s) = masked d none (afterName s) :=
  ite_mapped rfl (afterComment_masked s)

theorem afterExtra_masked (s : State) : afterExtra (masked d none s) = masked d none (afterExtra s) :=
  ite_mapped rfl (afterName_masked s)

theorem afterFixed_masked (s : State) : afterFixed (masked d none s) = masked d none (afterFixed s) :=
  ite_mapped rfl (afterExtra_masked s)

end

/-! ### What an instruction neither looks at nor writes -/

/-- `o'` ends as `o` does, but for what `f` replaces in the state where the reads left it. -/
def EndsMapped (f : State → State) (o o' : Host.Outcome State Fault Refusal) : Prop :=
  ∃ r : Rd Unit, o = finish r ∧ o' = finish (r.mapState f)

theorem Rd.Mapped.ends {f : State → State} {r r' : Rd Unit} (h : r.Mapped f r') : EndsMapped f (finish r) (finish r') :=
  ⟨r, rfl, congrArg finish h⟩

/-- The instructions of a block that leave the window alone. -/
structure LeavesWindow (i : Instr) : Prop where
  block : slotPhase (slotOf i) = .block
  not_eob : i ≠ .eob
  not_stored : i ≠ .stBody
  not_lit : ∀ b, i ≠ .lit b
  not_dist : i ∉ distInstrs

theorem not_leavesWindow_of_header {i : Instr} (h : slotPhase (slotOf i) = .header) : ¬ LeavesWindow i :=
  fun hw => Phase.noConfusion (h.symm.trans hw.block)

section
variable {d : State} {w : Option (List Byte)} {i : Instr} {p : Slot} {s t u : State}

theorem execStBody_masked (s : State) :
    EndsMapped (masked d none) (execStBody s) (execStBody (masked d none s)) :=
  Rd.Mapped.ends <| (brShift_masked 16 (brAlign s)).bind fun len t => (brShift_masked 16 t).bind fun _ u =>
    .ite rfl <| (copyStored_masked len u).bind fun _ _ => rfl

/-- No instruction but the trailer looks at RESULT, the host's last answer, the trailer's registers or the warnings; those of
`LeavesWindow` do not look at the window either. -/
theorem exec_masked (hi : i ≠ .gzTrailer) (hw : w = none ∨ LeavesWindow i) (s : State) :
    EndsMapped (masked d w) (exec i s) (exec i (masked d w s)) := by
  cases i with
  | gzTrailer => exact absurd rfl hi
  | blkStored | blkFixed | blkDynamic | blkReserved | illLen | illDist => exact ⟨_, rfl, rfl⟩
  | dhCounts =>
    exact Rd.Mapped.ends <| (brShift_masked 5 s).bind fun _ t => (brShift_masked 5 t).bind fun _ u =>
      (brShift_masked 4 u).bind fun _ _ => rfl
  | dhCll =>
    exact Rd.Mapped.ends <| (readCll_masked _ _ s).bind fun cll t => (buildTable_masked cll t).bind fun _ _ => rfl
  | clLen n => exact Rd.Mapped.ends (nextCodeLength_masked (appendLens [n] s))
  | clRep => exact Rd.Mapped.ends <| .ite rfl <| (brShift_masked 2 s).bind fun _ t => appendRun_masked _ _ t
  | clZero3 => exact Rd.Mapped.ends <| (brShift_masked 3 s).bind fun _ t => appendRun_masked _ _ t
  | clZero11 => exact Rd.Mapped.ends <| (brShift_masked 7 s).bind fun _ t => appendRun_masked _ _ t
  | len257 | len258 | len259 | len260 | len261 | len262 | len263 | len264 | len265 | len266 | len267 | len268 | len269
  | len270 | len271 | len272 | len273 | len274 | len275 | len276 | len277 | len278 | len279 | len280 | len281 | len282
  | len283 | len284 | len285 => exact Rd.Mapped.ends <| (lengthValue_masked _ s).bind fun _ _ => rfl
  | gzId => exact Rd.Mapped.ends <| (ibTake_masked s).bind fun _ t => (ibTake_masked t).bind fun _ _ => .ite rfl rfl
  | gzCm => exact Rd.Mapped.ends <| (ibTake_masked s).bind fun _ _ => .ite rfl rfl
  | gzFlg => exact Rd.Mapped.ends <| (ibTake_masked s).bind fun _ _ => rfl
  | gzFtext | gzFlgRsv => exact ⟨_, rfl, rfl⟩
  | gzFixed =>
    obtain rfl := hw.resolve_right (not_leavesWindow_of_header rfl)
    exact Rd.Mapped.ends <| (ibSkip_masked 6 s).bind fun _ t => congrArg (Rd.ready ()) (afterFixed_masked t)
  | gzFextra =>
    obtain rfl := hw.resolve_right (not_leavesWindow_of_header rfl)
    exact Rd.Mapped.ends <| (ibTake_masked s).bind fun _ t => (ibTake_masked t).bind fun _ u =>
      (ibSkip_masked _ u).bind fun _ v => congrArg (Rd.ready ()) (afterExtra_masked v)
  | gzFname =>
    obtain rfl := hw.resolve_right (not_leavesWindow_of_header rfl)
    exact Rd.Mapped.ends <| (ibSkipNul_masked s).bind fun _ t => congrArg (Rd.ready ()) (afterName_masked t)
  | gzFcomment =>
    obtain rfl := hw.resolve_right (not_leavesWindow_of_header rfl)
    exact Rd.Mapped.ends <| (ibSkipNul_masked s).bind fun _ t => congrArg (Rd.ready ()) (afterComment_masked t)
  | gzFhcrc =>
    obtain rfl := hw.resolve_right (not_leavesWindow_of_header rfl)
    exact Rd.Mapped.ends <| (ibSkip_masked 2 s).bind fun _ _ => rfl
  | stBody =>
    obtain rfl := hw.resolve_right fun h => h.not_stored rfl
    exact execStBody_masked s
  | lit b =>
    obtain rfl := hw.resolve_right fun h => h.not_lit b rfl
    exact ⟨_, rfl, rfl⟩
  | eob =>
    obtain rfl := hw.resolve_right fun h => h.not_eob rfl
    exact ⟨_, rfl, rfl⟩
  | dist0 | dist1 | dist2 | dist3 | dist4 | dist5 | dist6 | dist7 | dist8 | dist9 | dist10 | dist11 | dist12 | dist13
  | dist14 | dist15 | dist16 | dist17 | dist18 | dist19 | dist20 | dist21 | dist22 | dist23 | dist24 | dist25 | dist26
  | dist27 | dist28 | dist29 =>
    obtain rfl := hw.resolve_right fun h => h.not_dist (by decide)
    exact Rd.Mapped.ends (distanceSymbol_masked _ s)

/-- So the trailer's registers and the warnings are the trailer's alone (10_state.md R32, R35). -/
theorem exec_trailerKept (hi : i ≠ .gzTrailer) (h : exec i s = .next t) : trailerKept s t := by
  obtain ⟨r, -, hr⟩ := exec_masked (d := s) hi (.inl rfl) s
  rw [masked_self, h] at hr
  cases hr
  cases r <;> exact ⟨rfl, rfl, rfl, rfl⟩

/-- And an instruction of `LeavesWindow` keeps the window, unless it suspends (20_memory.md R65). -/
theorem exec_win_eq (hi : LeavesWindow i) (h : exec i s = .next t) (hn : notSuspended t) : t.win = s.win := by
  have hne : i ≠ .gzTrailer := fun he => by subst he; exact Phase.noConfusion hi.block
  obtain ⟨r, -, hr⟩ := exec_masked (d := s) (w := some s.win) hne (.inr hi) s
  have hself : masked s (some s.win) s = s := rfl
  rw [hself, h] at hr
  cases hr
  cases r with
  | ready _ u => rfl
  | needMoreOpen u => exact absurd rfl (hn rfl)
  | needMoreClosed u => rfl
  | fatal e u => rfl

/-! ### Symbols and block headers: what they may leave -/

/-- An instruction leaves a state of `CoreNext`, whatever its operand, seen from its own place with some unit-local state: the
operand of an ill-formed CL_LEN is no code length. -/
theorem exec_coreNext (h : exec i s = .next t) : ∃ l, CoreNext (slotOf i) { s with loc := l } t := by
  by_cases hwf : i.wf = true
  · obtain ⟨u, hu, hn⟩ := exec_finishes hwf (Within.refl (slotOf i) s)
    rw [h] at hu; cases hu
    exact ⟨s.loc, hn⟩
  · cases i with
    | clLen n =>
      obtain ⟨u, hu, hn⟩ := ((Within.refl .cl (appendLens [n] s)).nextCodeLength rfl).finishes
      cases h.symm.trans hu
      exact ⟨_, hn⟩
    | illLen n => cases h; exact ⟨s.loc, .failed .lenSym (.refl _ _)⟩
    | illDist n => cases h; exact ⟨s.loc, .failed .distSym (.refl _ _)⟩
    | _ => exact absurd rfl hwf

theorem eq_stBody_of_slotOf (h : slotOf i = .stBody) : i = .stBody := by
  cases i with
  | stBody => rfl
  | _ => cases h

/-- No literal, length or illegal symbol ends a block (43_deflate_symbols.md R301). -/
theorem exec_noUnitBegins_of_ll (hll : slotOf i = .ll) (heob : i ≠ .eob) (h : exec i s = .next t) : NoUnitBegins t := by
  cases i with
  | eob => exact absurd rfl heob
  | lit b => cases h; exact noUnitBegins_goto (by decide) _
  | illLen n => cases h; exact noUnitBegins_fatal _ s
  | len257 | len258 | len259 | len260 | len261 | len262 | len263 | len264 | len265 | len266 | len267 | len268 | len269
  | len270 | len271 | len272 | len273 | len274 | len275 | len276 | len277 | len278 | len279 | len280 | len281 | len282
  | len283 | len284 | len285 => cases h; exact noUnitBegins_bind fun _ _ => noUnitBegins_goto (by decide) _
  | _ => cases hll

/-- Of a block's instructions only EOB and the stored body end it. -/
theorem exec_noUnitBegins_of_symbol (hp : slotPhase (slotOf i) = .block) (heob : i ≠ .eob) (hst : i ≠ .stBody)
    (h : exec i s = .next t) : NoUnitBegins t := by
  by_cases hll : slotOf i = .ll
  · exact exec_noUnitBegins_of_ll hll heob h
  · exact exec_noUnitBegins hp hll (fun hs => hst (eq_stBody_of_slotOf hs)) h

theorem Within.snapshotKept (h : Within p s u) : snapshotKept s u :=
  ⟨h.kept State.snapOff fun _ => rfl, h.kept State.snapBuf fun _ => rfl, h.kept State.snapLen fun _ => rfl,
    h.kept State.snapWlen fun _ => rfl⟩

theorem Within.phase_kept (h : Within p s u) : u.phase = s.phase := h.kept State.phase fun _ => rfl

/-- What a block's instruction leaves alone when it does not end the block. -/
theorem CoreNext.symbolFrame (h : CoreNext p s t) (hp : slotPhase p = .block) (hn : NoUnitBegins t) :
    committedKept s t ∧ snapshotKept s t ∧ (notSuspended t → s.win <+: t.win) ∧
      (t.phase = s.phase ∨ t.phase = .error) := by
  cases h with
  | suspended hu => exact ⟨hu.committedKept, hu.snapshotKept, fun hs => absurd rfl (hs rfl), .inl hu.phase_kept⟩
  | failed e hu => exact ⟨hu.committedKept, hu.snapshotKept, fun _ => hu.extends_win, .inr rfl⟩
  | onward hu => exact ⟨hu.committedKept, hu.snapshotKept, fun _ => hu.extends_win, .inl hu.phase_kept⟩
  | headerDone _ hh => cases hp.symm.trans hh
  | @blockDone u _ _ =>
    obtain ⟨hbh, htrailer⟩ := hn
    exact ((commitBlock_begins u).elim hbh htrailer).elim
  | trailerDone _ ht => cases hp.symm.trans ht

end

/-- Settles O54: `CoreNext.symbolFrame` for an instruction that begins no unit (`exec_noUnitBegins_of_symbol`); the trailer's
registers and the window by what the instruction does not look at (`exec_masked`). -/
theorem symbolFrame : Obligations.SymbolFrame := by
  unfold Obligations.SymbolFrame
  intro i s t hp heob hst h
  obtain ⟨l, hnext⟩ := exec_coreNext h
  obtain ⟨hcommitted, hsnap, hwin, hphase⟩ := hnext.symbolFrame hp (exec_noUnitBegins_of_symbol hp heob hst h)
  have htrailer : i ≠ .gzTrailer := fun he => by subst he; exact Phase.noConfusion hp
  exact ⟨hcommitted, exec_trailerKept htrailer h, hnext.hostFieldsKept, hsnap,
    fun hn => ⟨hwin hn, fun hlit hdist => exec_win_eq ⟨hp, heob, hst, hlit, hdist⟩ h hn⟩, hphase⟩

end Sys2Proof.Machine
end

section
/-! ## H_RUN ends, and a suspended unit that runs again suspends again (20_memory.md R78; 46_host_interface.md R484) -/

namespace Sys2Proof.Machine

/-! ### What an instruction consumes -/

/-- A read that ends `ready` only after POS moved on from where it is in `s`. -/
def Rd.Advances {α : Type} (s : State) (r : Rd α) : Prop := r.Sat (fun _ => True) fun _ t => pos s < pos t

section
variable {α β : Type} {s t u : State} {p q : Slot} {i : Instr}

theorem underflow_advances (s u : State) : (underflow u : Rd α).Advances s := sat_underflow trivial

/-- A read that advances, then one that reads forward. -/
theorem Rd.Advances.bind {r : Rd α} {f : α → State → Rd β} (hr : r.Advances s) (hf : ∀ v t, (f v t).Forward t) :
    (r.bind f).Advances s := by
  refine Rd.Sat.bind hr fun v t ht => ?_
  have hforward := hf v t
  cases hft : f v t with
  | ready w u => rw [hft] at hforward; exact Nat.lt_of_lt_of_le ht hforward
  | needMoreOpen u => trivial
  | needMoreClosed u => trivial
  | fatal e u => trivial

/-- Where the bits in BR_BUF came from consumed bytes, a byte taken moves POS on. -/
theorem ibTake_advances (hs : UnitOk s) : (ibTake s).Advances s := by
  obtain ⟨-, -, hpos, -⟩ := hs
  rcases Nat.eq_zero_or_pos (avail s) with h0 | h1
  · rw [ibTake_underflow h0]; exact underflow_advances s s
  · rw [ibTake_ready h1]
    show pos s < pos (taken 1 s)
    simp only [pos, taken_ibOff, taken_brLen]
    omega

theorem ibSkipNul_advances (hs : UnitOk s) : (ibSkipNul s).Advances s := by
  unfold ibSkipNul
  cases avail s with
  | zero => exact underflow_advances s s
  | succ n => exact (ibTake_advances hs).bind fun _ t => .ite (Nat.le_refl _) (ibSkipNulLoop_forward n t)

theorem brShift_advances {n : Nat} (hn : 0 < n ∧ n ≤ 16) (hs : UnitOk s) : (brShift n s).Advances s := by
  obtain ⟨⟨-, -, hbits, -⟩, -, hpos, -⟩ := hs
  obtain ⟨h0, h16⟩ := hn
  rcases Nat.lt_or_ge (availBits s) n with hshort | hthere
  · rw [brShift_underflow hbits h16 hshort]; exact underflow_advances s _
  · rw [brShift_ready hbits h16 hthere]
    show pos s < pos (drawn n s)
    rw [pos_drawn hpos]
    omega

/-- A read that advances from the next byte boundary. -/
theorem Rd.Advances.aligned {r : Rd α} (h : r.Advances (brAlign s)) : r.Advances s := by
  cases r with
  | ready v t => exact Nat.lt_of_le_of_lt (pos_brDrop _ s) h
  | needMoreOpen t => trivial
  | needMoreClosed t => trivial
  | fatal e t => trivial

/-- The places whose instruction begins with a read of its own. -/
def readsFirst : Slot → Bool
  | .gzId | .gzCm | .gzFlg | .gzFixed | .gzFextra | .gzFname | .gzFcomment | .gzFhcrc => true
  | .stBody | .dhCounts => true
  | .gzFtext | .gzFlgRsv | .bh | .dhCll | .cl | .ll | .d | .trailer => false

/-- An instruction that ends `ready` only after POS moved on. -/
def ExecAdvances (s : State) (o : Host.Outcome State Fault Refusal) : Prop := ∃ r, o = finish r ∧ r.Advances s

theorem Rd.Advances.ends {r : Rd Unit} (h : r.Advances s) : ExecAdvances s (finish r) := ⟨r, rfl, h⟩

theorem execStBody_advances (hs : UnitOk s) : ExecAdvances s (execStBody s) :=
  have haligned : UnitOk (brAlign s) := (Within.refl .stBody s).brAlign.ok hs
  Rd.Advances.ends <| .aligned <| (brShift_advances (by decide) haligned).bind fun len t =>
    (brShift_forward 16 t).bind fun _ u =>
      .ite (Nat.le_refl _) <| (copyStored_forward len u).bind fun _ _ => Nat.le_refl _

theorem exec_advances (hs : UnitOk s) (hi : readsFirst (slotOf i) = true) : ExecAdvances s (exec i s) := by
  cases i with
  | gzId =>
    exact Rd.Advances.ends <| (ibTake_advances hs).bind fun _ t => (ibTake_forward t).bind fun _ _ =>
      .ite (Nat.le_refl _) (Nat.le_refl _)
  | gzCm => exact Rd.Advances.ends <| (ibTake_advances hs).bind fun _ _ => .ite (Nat.le_refl _) (Nat.le_refl _)
  | gzFlg => exact Rd.Advances.ends <| (ibTake_advances hs).bind fun _ _ => Nat.le_refl _
  | gzFixed =>
    exact Rd.Advances.ends <| Rd.Advances.bind ((ibTake_advances hs).bind fun _ t => ibSkip_forward 5 t) fun _ t =>
      (pos_afterFixed t).ge
  | gzFextra =>
    exact Rd.Advances.ends <| (ibTake_advances hs).bind fun _ t => (ibTake_forward t).bind fun _ u =>
      (ibSkip_forward _ u).bind fun _ v => (pos_afterExtra v).ge
  | gzFname => exact Rd.Advances.ends <| (ibSkipNul_advances hs).bind fun _ t => (pos_afterName t).ge
  | gzFcomment => exact Rd.Advances.ends <| (ibSkipNul_advances hs).bind fun _ t => (pos_afterComment t).ge
  | gzFhcrc =>
    exact Rd.Advances.ends <| Rd.Advances.bind ((ibTake_advances hs).bind fun _ t => ibSkip_forward 1 t) fun _ _ =>
      Nat.le_refl _
  | stBody => exact execStBody_advances hs
  | dhCounts =>
    exact Rd.Advances.ends <| (brShift_advances (by decide) hs).bind fun _ t => (brShift_forward 5 t).bind fun _ u =>
      (brShift_forward 4 u).bind fun _ _ => Nat.le_refl _
  | _ => exact Bool.noConfusion hi

/-- How many steps in a row need not consume a bit, from a place on. -/
def idleSteps : Slot → Nat
  | .gzFtext => 2
  | .gzFlgRsv | .dhCll => 1
  | .gzId | .gzCm | .gzFlg | .gzFixed | .gzFextra | .gzFname | .gzFcomment | .gzFhcrc => 0
  | .bh | .stBody | .dhCounts | .cl | .ll | .d | .trailer => 0

theorem idleSteps_le (p : Slot) : idleSteps p ≤ 2 := by cases p <;> decide

/-- The run stops, or it goes on at `q`. -/
def GoesTo (q : Slot) (t : State) : Prop := t.ctl ≠ .idle → t.ctl = .run q

/-- A read that stops an instruction stops the core. -/
theorem goesTo_bind {r : Rd α} {f : α → State → Rd Unit} (h : ∀ v t, GoesTo q (settle (f v t))) :
    GoesTo q (settle (r.bind f)) := by
  cases r with
  | ready v t => exact h v t
  | needMoreOpen t => exact fun hc => absurd rfl hc
  | needMoreClosed t => exact fun hc => absurd rfl hc
  | fatal e t => exact fun hc => absurd rfl hc

theorem GoesTo.idleSteps_lt {n : Nat} (h : GoesTo p t) (hq : t.ctl = .run q) (hp : idleSteps p < n) :
    idleSteps q < n := by
  cases hq.symm.trans (h (by rw [hq]; exact Ctl.noConfusion))
  exact hp

/-- After a place that need not consume a bit there come fewer of them. -/
theorem exec_idleSteps_lt (hi : 0 < idleSteps (slotOf i)) (h : exec i s = .next t) (hq : t.ctl = .run q) :
    idleSteps q < idleSteps (slotOf i) := by
  cases i with
  | gzFtext => cases h; exact GoesTo.idleSteps_lt (p := .gzFlgRsv) (fun _ => rfl) hq (by decide)
  | gzFlgRsv => cases h; exact GoesTo.idleSteps_lt (p := .gzFixed) (fun _ => rfl) hq (by decide)
  | dhCll =>
    cases h
    exact GoesTo.idleSteps_lt (p := .cl) (goesTo_bind fun _ _ => goesTo_bind fun _ _ _ => rfl) hq (by decide)
  | _ => exact absurd hi (Nat.lt_irrefl 0)

/-! ### What a step consumes -/

/-- The bits still to come and those consumed are all that were received (10_state.md R25, R40). -/
theorem availBits_add_pos (hs : UnitOk s) : availBits s + pos s = 8 * s.ibData.length := by
  obtain ⟨⟨hoff, -⟩, -, hpos, -⟩ := hs
  unfold availBits pos avail
  omega

/-- The trailer unit is one instruction (44_gzip_framer.md R420). -/
theorem CoreNext.stops_of_trailer (h : CoreNext .trailer s t) : t.ctl = .idle := by
  cases h with
  | suspended _ => rfl
  | failed _ _ => rfl
  | @onward u q _ hq hfirst _ =>
    cases q with
    | trailer => exact absurd rfl hfirst
    | _ => cases hq
  | headerDone _ hp => cases hp
  | blockDone _ hp => cases hp
  | trailerDone _ _ => rfl

/-- A step after which the core goes on executed the instruction it fetched. -/
theorem step_fetched (hc : s.ctl = .run p) (h : step s = .next t) (hq : t.ctl = .run q) :
    ∃ i u, fetch p s = .ready (.ok i) u ∧ slotOf i = p ∧ exec i u = .next t := by
  rcases step_run_fetch hc h with hfetched | rfl | ⟨e, rfl⟩
  · exact hfetched
  · cases hq
  · cases hq

theorem notSuspended_of_run (hq : t.ctl = .run q) : notSuspended t := fun hidle => by cases hq.symm.trans hidle

theorem StructOk.phase_of_run (hs : StructOk s) (hc : s.ctl = .run p) : s.phase = slotPhase p :=
  ((controlOk_run hc).mp (structOk_iff.mp hs).2).1

/-- From a place whose instruction reads first, the step consumes. -/
theorem pos_lt_of_readsFirst (hs : UnitOk s) (hp : readsFirst p = true) (hc : s.ctl = .run p) (h : step s = .next t)
    (hq : t.ctl = .run q) : pos s < pos t := by
  obtain ⟨i, u, hfetch, rfl, hexec⟩ := step_fetched hc h hq
  have hsat := fetch_sat (slotOf i) s
  have hforward := fetch_forward (slotOf i) s
  rw [hfetch] at hsat hforward
  obtain ⟨r, hr, hadvances⟩ := exec_advances (hsat.1.ok hs) hp
  rw [hexec] at hr; cases hr
  cases r with
  | ready _ t => exact Nat.lt_of_le_of_lt hforward hadvances
  | needMoreOpen t => cases hq
  | needMoreClosed t => cases hq
  | fatal e t => cases hq

/-- A block header is three bits (42_deflate_blocks.md R202). -/
theorem pos_lt_of_bh (hs : UnitOk s) (hc : s.ctl = .run .bh) (h : step s = .next t) (hq : t.ctl = .run q) :
    pos s < pos t := by
  obtain ⟨i, u, hfetch, -, hexec⟩ := step_fetched hc h hq
  have hadvances : (fetch .bh s).Advances s := (brShift_advances (by decide) hs).bind fun _ t =>
    (brShift_forward 2 t).bind fun _ _ => Nat.le_refl _
  rw [hfetch] at hadvances
  exact Nat.lt_of_lt_of_le hadvances (pos_le_of_exec hexec (notSuspended_of_run hq))

/-- A step after which the core goes on consumes a bit, but at the few places of `idleSteps`. -/
theorem pos_lt_of_step (hs : StructOk s) (hc : s.ctl = .run p) (h : step s = .next t) (hq : t.ctl = .run q)
    (hp : idleSteps p = 0) : pos s < pos t := by
  have hunit : UnitOk s := (structOk_iff.mp hs).1
  cases p with
  | gzId | gzCm | gzFlg | gzFixed | gzFextra | gzFname | gzFcomment | gzFhcrc | stBody | dhCounts =>
    exact pos_lt_of_readsFirst hunit rfl hc h hq
  | bh => exact pos_lt_of_bh hunit hc h hq
  | cl | ll | d =>
    have hphase := (step_structOk hs h).phase_of_run hq
    exact pos_lt_of_symbol hunit rfl hc h (notSuspended_of_run hq) (hphase ▸ (slotPhase_running q).1)
  | trailer => cases hq.symm.trans (step_run_cases hc h).stops_of_trailer
  | gzFtext | gzFlgRsv | dhCll => cases hp

/-- What bounds the steps of a run from place `p`: three for each bit to come, and those that consume nothing. -/
def stepsBound (p : Slot) (s : State) : Nat := 3 * availBits s + idleSteps p

/-- A step after which the core goes on lowers the bound. -/
theorem stepsBound_lt (hs : StructOk s) (hc : s.ctl = .run p) (h : step s = .next t) (hq : t.ctl = .run q) :
    stepsBound q t < stepsBound p s := by
  have hbits := availBits_add_pos (structOk_iff.mp hs).1
  have hbits' := availBits_add_pos (structOk_iff.mp (step_structOk hs h)).1
  obtain ⟨hdata, -⟩ := (step_run_cases hc h).hostFieldsKept
  rw [hdata] at hbits'
  have hle := idleSteps_le q
  unfold stepsBound
  rcases Nat.eq_zero_or_pos (idleSteps p) with h0 | hpos
  · have hlt := pos_lt_of_step hs hc h hq h0
    omega
  · obtain ⟨i, u, -, rfl, hexec⟩ := step_fetched hc h hq
    have hforward := Nat.le_trans (fetch_forward (slotOf i) s) (pos_fetch_le_of_step hc h (notSuspended_of_run hq))
    have hlt := exec_idleSteps_lt hpos hexec hq
    omega

/-! ### H_RUN ends -/

@[simp] theorem coreRun_of_idle (hc : s.ctl = .idle) (k : Nat) : coreRun k s = s := by
  cases k with
  | zero => rfl
  | succ k => rw [coreRun, hc]

theorem coreRun_succ (hc : s.ctl = .run p) (h : step s = .next t) (k : Nat) : coreRun (k + 1) s = coreRun k t := by
  rw [coreRun, hc, h]

/-- The core stops within the bound. -/
theorem coreRun_stops (k : Nat) (hs : StructOk s) (hc : s.ctl = .run p) (hk : stepsBound p s < k) :
    (coreRun k s).ctl = .idle := by
  induction k generalizing s p with
  | zero => omega
  | succ k ih =>
    obtain ⟨t, ht⟩ := step_goes hs
    rw [coreRun_succ hc ht]
    cases hq : t.ctl with
    | idle => rw [coreRun_of_idle hq]; exact hq
    | run q =>
      have hlt := stepsBound_lt hs hc ht hq
      exact ih (step_structOk hs ht) hq (by omega)

/-- `runBound` steps are enough (46_host_interface.md R484). -/
theorem coreRun_runBound_stops (hs : StructOk s) : (coreRun (runBound s) s).ctl = .idle := by
  cases hc : s.ctl with
  | idle => rw [coreRun_of_idle hc]; exact hc
  | run p =>
    have hle := idleSteps_le p
    exact coreRun_stops _ hs hc (by unfold stepsBound runBound; omega)

/-- The beginning of H_RUN consumes nothing. -/
theorem availBits_hRun (s : State) : availBits (hRun s) = availBits s := by
  unfold hRun
  split <;> rfl

/-- H_RUN from a stopped core ends (46_host_interface.md R484). -/
theorem runAtomic_stops (hs : StructOk s) (hc : s.ctl = .idle) : (runAtomic s).ctl = .idle := by
  have hrun : StructOk (hRun s) := (hRun_hostNext s).structOk hc hs
  have hbound : runBound s = runBound (hRun s) := by unfold runBound; rw [availBits_hRun]
  rw [runAtomic, hbound]
  exact coreRun_runBound_stops hrun

/-! ### The trailer's registers before a suspension -/

/-- The rule of consequence. -/
theorem Rd.Sat.mono {E E' : State → Prop} {Q Q' : α → State → Prop} {r : Rd α} (h : r.Sat E Q)
    (hE : ∀ t, E t → E' t) (hQ : ∀ v t, Q v t → Q' v t) : r.Sat E' Q' := by
  cases r with
  | ready v t => exact hQ v t h
  | needMoreOpen t => exact hE t h
  | needMoreClosed t => exact hE t h
  | fatal e t => exact hE t h

/-- What holds whatever the outcome holds of the state left. -/
theorem Rd.Sat.state {E : State → Prop} {r : Rd α} (h : r.Sat E fun _ t => E t) : E r.state := by
  cases r with
  | ready v t => exact h
  | needMoreOpen t => exact h
  | needMoreClosed t => exact h
  | fatal e t => exact h

theorem trailerKept_trans (h : trailerKept s t) (h' : trailerKept t u) : trailerKept s u := by
  obtain ⟨hcrc, hsize, hwcrc, hwsize⟩ := h
  obtain ⟨hcrc', hsize', hwcrc', hwsize'⟩ := h'
  exact ⟨hcrc'.trans hcrc, hsize'.trans hsize, hwcrc'.trans hwcrc, hwsize'.trans hwsize⟩

theorem trailerKept_masked (s u : State) : trailerKept s (masked s none u) := ⟨rfl, rfl, rfl, rfl⟩

/-- A read that does not look at the trailer's registers leaves them. -/
theorem Rd.Mapped.sat_trailerKept {r : Rd α} (h : r.Mapped (masked s none) r) :
    r.Sat (trailerKept s) fun _ t => trailerKept s t := by
  rw [h]
  cases r with
  | ready v t => exact trailerKept_masked s t
  | needMoreOpen t => exact trailerKept_masked s t
  | needMoreClosed t => exact trailerKept_masked s t
  | fatal e t => exact trailerKept_masked s t

theorem fetch_trailerKept (p : Slot) (s : State) : (fetch p s).Sat (trailerKept s) fun _ t => trailerKept s t :=
  (fetch_masked p s).sat_trailerKept

theorem brWordLe_trailerKept (n : Nat) (h : trailerKept s u) :
    (brWordLe n u).Sat (trailerKept s) fun _ t => trailerKept s t :=
  Rd.Sat.mono (brWordLe_masked n u).sat_trailerKept (fun _ => trailerKept_trans h) fun _ _ => trailerKept_trans h

/-- `t` is no suspension, or one before which the trailer's registers were not written. -/
def SuspendsKept (s t : State) : Prop := notSuspended t ∨ trailerKept s t

theorem suspendsKept_bind {Q : α → State → Prop} {r : Rd α} {f : α → State → Rd Unit} (hr : r.Sat (trailerKept s) Q)
    (hf : ∀ v t, Q v t → SuspendsKept s (settle (f v t))) : SuspendsKept s (settle (r.bind f)) := by
  cases r with
  | ready v t => exact hf v t hr
  | needMoreOpen t => exact .inr hr
  | needMoreClosed t => exact .inl fun _ => RunResult.noConfusion
  | fatal e t => exact .inl fun _ => RunResult.noConfusion

/-- Once the trailer is read it ends the run, one way or the other (45_crc32_validator.md R443 to R446). -/
theorem notSuspended_verify (c sz : Word) (s : State) :
    notSuspended (settle ((verify c sz s).bind fun _ t => .ready () (commitTrailer t))) := by
  unfold verify
  split
  · exact fun _ => RunResult.noConfusion
  · exact fun _ => RunResult.noConfusion
  · split_ifs
    · exact fun _ => RunResult.noConfusion
    · exact fun _ => RunResult.noConfusion
    · exact fun _ => RunResult.noConfusion

/-- The trailer is read whole before any of it is stored (44_gzip_framer.md R420). -/
theorem execGzTrailer_suspendsKept (h : exec .gzTrailer s = .next t) : SuspendsKept s t := by
  cases h
  exact suspendsKept_bind (brWordLe_trailerKept 4 (u := brAlign s) ⟨rfl, rfl, rfl, rfl⟩) fun _ _ ht =>
    suspendsKept_bind (brWordLe_trailerKept 4 ht) fun _ _ _ => .inl (notSuspended_verify _ _ _)

theorem exec_suspendsKept (h : exec i s = .next t) : SuspendsKept s t := by
  by_cases hi : i = .gzTrailer
  · subst hi; exact execGzTrailer_suspendsKept h
  · exact .inr (exec_trailerKept hi h)

/-- A step from a place other than the trailer, or one that suspends, leaves the trailer's registers. -/
theorem step_trailerKept (hc : s.ctl = .run p) (h : step s = .next t) (hp : p ≠ .trailer ∨ ¬ notSuspended t) :
    trailerKept s t := by
  have hfetch := fetch_trailerKept p s
  rcases step_run_fetch hc h with ⟨i, u, hu, rfl, hexec⟩ | rfl | ⟨e, rfl⟩
  · rw [hu] at hfetch
    refine trailerKept_trans hfetch ?_
    rcases hp with hplace | hsusp
    · exact exec_trailerKept (fun hi => hplace (by rw [hi]; rfl)) hexec
    · exact (exec_suspendsKept hexec).resolve_left hsusp
  · exact hfetch.state
  · exact hfetch.state

/-! ### What a unit writes before it commits, and what its suspension leaves (46_host_interface.md R477) -/

/-- `u` is `s` but for what a unit writes before it commits: the cursor, the bits, more bytes of the window, the unit-local
state and the core's place. -/
def Worked (s u : State) : Prop :=
  u = { s with
    ibOff := u.ibOff, brBuf := u.brBuf, brLen := u.brLen, win := u.win, loc := u.loc, ctl := u.ctl } ∧ s.win <+: u.win

theorem Worked.refl (s : State) : Worked s s := ⟨rfl, List.prefix_rfl⟩

theorem Worked.trans (h : Worked s t) (h' : Worked t u) : Worked s u := by
  obtain ⟨heq, hwin⟩ := h
  obtain ⟨heq', hwin'⟩ := h'
  refine ⟨?_, hwin.trans hwin'⟩
  rw [heq] at heq'
  exact heq'

/-- Where the trailer's registers are kept, an instruction writes no more than its unit may. -/
theorem Within.worked (h : Within p s u) (hkept : trailerKept s u) : Worked s u := by
  obtain ⟨hcrc, hsize, hwcrc, hwsize⟩ := hkept
  refine ⟨?_, h.extends_win⟩
  have hrest : u = { blankUnit u with
      ibOff := u.ibOff, brBuf := u.brBuf, brLen := u.brLen, win := u.win, loc := u.loc, ctl := u.ctl,
      trlCrc := u.trlCrc, trlIsize := u.trlIsize, warnCrc := u.warnCrc, warnSize := u.warnSize } := rfl
  rw [h.frame, hcrc, hsize, hwcrc, hwsize] at hrest
  exact hrest

/-- A suspension gives back everything the unit wrote. -/
theorem Worked.suspend_eq (h : Worked s u) (hle : s.snapWlen ≤ s.win.length) :
    suspend u = { s with
      ibOff := s.snapOff, brBuf := s.snapBuf, brLen := s.snapLen, win := s.win.take s.snapWlen,
      loc := Locals.initial, result := .needMore, ctl := .idle, reply := .result .needMore } := by
  obtain ⟨heq, w, hwin⟩ := h
  have htake : u.win.take s.snapWlen = s.win.take s.snapWlen := by
    rw [← hwin, List.take_append_of_le_length hle]
  rw [← htake]
  conv_lhs => rw [heq]
  rfl

/-- A unit that has just begun: it stands at its first place, its snapshot taken, with no unit-local state. -/
structure Begins (b : State) : Prop where
  snapshot_taken : startUnit b = b
  no_locals : b.loc = Locals.initial
  running : b.ctl ≠ .idle

theorem begins_startUnit (hl : s.loc = Locals.initial) (hc : (startUnit s).ctl ≠ .idle) : Begins (startUnit s) :=
  ⟨rfl, hl, hc⟩

theorem Begins.snapWlen_eq (h : Begins s) : s.snapWlen = s.win.length := by rw [← h.snapshot_taken]; rfl

/-- A suspension leaves its unit as it began, but for what H_RUN answers (46_host_interface.md R477; 20_memory.md R68). -/
theorem Begins.suspend_eq (hb : Begins s) (h : Worked s u) : suspend u = returnToHost .needMore s := by
  have hsnap := hb.snapshot_taken
  rw [h.suspend_eq hb.snapWlen_eq.le, hb.snapWlen_eq, List.take_length, ← hb.no_locals]
  conv_lhs => rw [← hsnap]
  conv_rhs => rw [← hsnap]
  rfl

/-- What a step makes of a unit that began in `b`: it suspends as it began, or stops otherwise, or goes on, or the next unit
begins. -/
inductive UnitNext (b : State) : State → Prop where
  | suspended : UnitNext b (returnToHost .needMore b)
  | stopped {t : State} : t.ctl = .idle → notSuspended t → UnitNext b t
  | onward {t : State} : t.ctl ≠ .idle → Worked b t → UnitNext b t
  | begun {t : State} : Begins t → UnitNext b t

theorem step_unitNext {b : State} (hb : Begins b) (hw : Worked b s) (hc : s.ctl = .run p) (h : step s = .next t) :
    UnitNext b t := by
  have hkept := step_trailerKept hc h
  cases step_run_cases hc h with
  | suspended hu =>
    have hwork := hu.worked (hkept (.inr fun hn => hn rfl rfl))
    exact hb.suspend_eq (hw.trans hwork) ▸ .suspended
  | failed e hu => exact .stopped rfl fun _ => RunResult.noConfusion
  | @onward u q hu hq hfirst _ =>
    have hp : p ≠ .trailer := fun hp => by
      subst hp
      cases ((step_run_cases hc h).stops_of_trailer).symm
    have hwork := hu.worked (hkept (.inl hp))
    exact .onward Ctl.noConfusion (hw.trans hwork |>.trans ⟨rfl, List.prefix_rfl⟩)
  | headerDone _ _ => exact .begun (begins_startUnit rfl Ctl.noConfusion)
  | @blockDone u _ _ =>
    refine .begun (begins_startUnit rfl fun hidle => ?_)
    exact (commitBlock_begins u).elim (fun hr => Ctl.noConfusion (hr.symm.trans hidle))
      fun hr => Ctl.noConfusion (hr.symm.trans hidle)
  | trailerDone _ _ => exact .stopped rfl fun _ => RunResult.noConfusion

/-! ### A step does not look at what the last H_RUN answered -/

/-- `s` after an H_RUN that answered NEED_MORE. -/
def rerun (s : State) : State := { s with result := .needMore, reply := .result .needMore }

theorem masked_rerun (h : trailerKept s t) : masked (rerun s) none t = rerun t := by
  obtain ⟨hcrc, hsize, hwcrc, hwsize⟩ := h
  show { t with
    result := .needMore, reply := .result .needMore, trlCrc := s.trlCrc, trlIsize := s.trlIsize, warnCrc := s.warnCrc,
    warnSize := s.warnSize } = rerun t
  rw [← hcrc, ← hsize, ← hwcrc, ← hwsize]
  rfl

theorem mapState_masked_rerun {r : Rd α} (h : trailerKept s r.state) :
    r.mapState (masked (rerun s) none) = r.mapState rerun := by
  cases r with
  | ready v t => exact congrArg (Rd.ready v) (masked_rerun h)
  | needMoreOpen t => exact congrArg Rd.needMoreOpen (masked_rerun h)
  | needMoreClosed t => exact congrArg Rd.needMoreClosed (masked_rerun h)
  | fatal e t => exact congrArg (Rd.fatal e) (masked_rerun h)

/-- A read does not look at what the last H_RUN answered. -/
theorem Rd.Mapped.rerun {r r' : Rd α} (h : r.Mapped (masked (rerun s) none) r') (hself : r.Mapped (masked s none) r) :
    r.Mapped rerun r' :=
  h.trans (mapState_masked_rerun hself.sat_trailerKept.state)

theorem fetch_rerun (p : Slot) (s : State) : (fetch p s).Mapped rerun (fetch p (rerun s)) :=
  Rd.Mapped.rerun (fetch_masked p s) (fetch_masked p s)

theorem brWordLe_rerun (n : Nat) (s : State) : (brWordLe n s).Mapped rerun (brWordLe n (rerun s)) :=
  Rd.Mapped.rerun (brWordLe_masked n s) (brWordLe_masked n s)

theorem verify_rerun (c sz : Word) (s : State) : (verify c sz s).Mapped rerun (verify c sz (rerun s)) := by
  have hmode : (rerun s).cfgVerify = s.cfgVerify := rfl
  unfold verify
  rw [hmode]
  cases s.cfgVerify with
  | off => rfl
  | warn => rfl
  | fatal => exact .ite rfl (.ite rfl rfl)

/-- A read that stops an instruction makes H_RUN answer anew, so only what follows a read that is ready matters. -/
theorem settle_bind_rerun {r r' : Rd α} {g g' : α → State → Rd Unit} (h : r.Mapped rerun r')
    (hg : ∀ v t, settle (g' v (rerun t)) = settle (g v t)) : settle (r'.bind g') = settle (r.bind g) := by
  rw [h]
  cases r with
  | ready v t => exact hg v t
  | needMoreOpen t => rfl
  | needMoreClosed t => rfl
  | fatal e t => rfl

/-- The trailer ends the run, and H_RUN answers anew. -/
theorem execGzTrailer_rerun (s : State) : exec .gzTrailer (rerun s) = exec .gzTrailer s :=
  congrArg Host.Outcome.next <| settle_bind_rerun (brWordLe_rerun 4 (brAlign s)) fun c t =>
    settle_bind_rerun (brWordLe_rerun 4 t) fun sz u =>
      settle_bind_rerun
        (verify_rerun _ _ { u with trlCrc := BitVec.ofNat 32 c, trlIsize := BitVec.ofNat 32 sz }) fun _ _ => rfl

/-- An outcome that goes on keeps what the last H_RUN answered; with every other H_RUN answers anew. -/
theorem settle_mapState_rerun (r : Rd Unit) :
    settle (r.mapState rerun) = rerun (settle r) ∨ settle (r.mapState rerun) = settle r := by
  cases r with
  | ready _ t => exact .inl rfl
  | needMoreOpen t => exact .inr rfl
  | needMoreClosed t => exact .inr rfl
  | fatal e t => exact .inr rfl

theorem trailerKept_of_settle {r : Rd Unit} (h : trailerKept s (settle r)) : trailerKept s r.state := by
  cases r <;> exact h

theorem exec_rerun (h : exec i s = .next t) : exec i (rerun s) = .next (rerun t) ∨ exec i (rerun s) = .next t := by
  by_cases hi : i = .gzTrailer
  · subst hi; exact .inr ((execGzTrailer_rerun s).trans h)
  · have hkept := exec_trailerKept hi h
    obtain ⟨r, hr, hr'⟩ := exec_masked (d := rerun s) hi (.inl rfl) s
    rw [h] at hr; cases hr
    rw [mapState_masked_rerun (trailerKept_of_settle hkept)] at hr'
    exact (settle_mapState_rerun r).imp (fun he => hr'.trans (congrArg Host.Outcome.next he))
      fun he => hr'.trans (congrArg Host.Outcome.next he)

theorem step_rerun (hc : s.ctl = .run p) (h : step s = .next t) :
    step (rerun s) = .next (rerun t) ∨ step (rerun s) = .next t := by
  have hc' : (rerun s).ctl = .run p := hc
  have hfetch : fetch p (rerun s) = (fetch p s).mapState rerun := fetch_rerun p s
  simp only [step, hc] at h
  simp only [step, hc', hfetch]
  cases hr : fetch p s with
  | ready r u =>
    rw [hr] at h
    cases r with
    | ok i => exact exec_rerun h
    | error e => cases h
  | needMoreOpen u => rw [hr] at h; exact .inr h
  | needMoreClosed u => rw [hr] at h; exact .inr h
  | fatal e u => rw [hr] at h; exact .inr h

/-! ### Runs of the core -/

/-- One step of the running core. -/
def CoreStep (s t : State) : Prop := s.ctl ≠ .idle ∧ step s = .next t

/-- The states the running core reaches, until it stops. -/
def CoreReaches : State → State → Prop := Relation.ReflTransGen CoreStep

theorem CoreStep.of_run (hc : s.ctl = .run p) (h : step s = .next t) : CoreStep s t :=
  ⟨by rw [hc]; exact Ctl.noConfusion, h⟩

theorem CoreStep.run (h : CoreStep s t) : ∃ p, s.ctl = .run p := by
  obtain ⟨hc, -⟩ := h
  cases hs : s.ctl with
  | idle => exact absurd hs hc
  | run p => exact ⟨p, rfl⟩

/-- `coreRun` goes along the steps of the core. -/
theorem coreReaches_coreRun (k : Nat) (s : State) : CoreReaches s (coreRun k s) := by
  induction k generalizing s with
  | zero => exact .refl
  | succ k ih =>
    cases hc : s.ctl with
    | idle => rw [coreRun_of_idle hc]; exact .refl
    | run p =>
      cases hs : step s with
      | next t => rw [coreRun_succ hc hs]; exact .head (.of_run hc hs) (ih t)
      | fault e => rw [coreRun, hc, hs]; exact .refl
      | refused e => rw [coreRun, hc, hs]; exact .refl

/-- The core stops in one state. -/
theorem CoreReaches.stop_unique (h : CoreReaches s t) (ht : t.ctl = .idle) (h' : CoreReaches s u)
    (hu : u.ctl = .idle) : t = u := by
  induction h using Relation.ReflTransGen.head_induction_on with
  | refl =>
    rcases h'.cases_head with rfl | ⟨v, ⟨hc, -⟩, -⟩
    · rfl
    · exact absurd ht hc
  | head hstep _ ih =>
    obtain ⟨hc, hnext⟩ := hstep
    rcases h'.cases_head with rfl | ⟨v, ⟨-, hv⟩, hvu⟩
    · exact absurd hu hc
    · rw [hnext] at hv; cases hv
      exact ih hvu

theorem CoreReaches.structOk (h : CoreReaches s t) (hs : StructOk s) : StructOk t := by
  induction h with
  | refl => exact hs
  | tail _ hstep ih => exact step_structOk ih hstep.2

/-- From a unit's beginning the core reaches states of a unit that began on the way, and where it suspends it leaves a unit
as it began. -/
theorem CoreReaches.last_unit (h : CoreReaches s t) (hs : Begins s) :
    ∃ b, Begins b ∧ CoreReaches b t ∧
      (t = returnToHost .needMore b ∨ (t.ctl = .idle ∧ notSuspended t) ∨ (t.ctl ≠ .idle ∧ Worked b t)) := by
  induction h with
  | refl => exact ⟨s, hs, .refl, .inr (.inr ⟨hs.running, .refl s⟩)⟩
  | tail _ hstep ih =>
    obtain ⟨b, hb, hreach, hcase⟩ := ih
    obtain ⟨p, hc⟩ := hstep.run
    have hreach' := hreach.tail hstep
    rcases hcase with rfl | ⟨hidle, -⟩ | ⟨-, hwork⟩
    · cases hc
    · cases hidle.symm.trans hc
    · cases step_unitNext hb hwork hc hstep.2 with
      | suspended => exact ⟨b, hb, hreach', .inl rfl⟩
      | stopped hidle hn => exact ⟨b, hb, hreach', .inr (.inl ⟨hidle, hn⟩)⟩
      | onward hrun hwork' => exact ⟨b, hb, hreach', .inr (.inr ⟨hrun, hwork'⟩)⟩
      | begun hbegins => exact ⟨_, hbegins, .refl, .inr (.inr ⟨hbegins.running, .refl _⟩)⟩

/-- A unit that suspended does so again, whatever the last H_RUN answered. -/
theorem CoreReaches.rerun (h : CoreReaches s t) (ht : rerun t = t) : CoreReaches (rerun s) t := by
  induction h using Relation.ReflTransGen.head_induction_on with
  | refl => rw [ht]; exact .refl
  | head hstep hreach ih =>
    obtain ⟨p, hc⟩ := hstep.run
    have hrun : (Machine.rerun _).ctl = .run p := hc
    rcases step_rerun hc hstep.2 with hnext | hnext
    · exact .head (.of_run hrun hnext) ih
    · exact .head (.of_run hrun hnext) hreach

/-! ### H_RUN twice -/

theorem hRun_of_firstSlot (h : firstSlot s.phase ≠ .idle) : hRun s = startUnit s := by
  unfold hRun
  split
  case h_1 hp => rw [hp] at h; exact absurd rfl h
  case h_2 hp => rw [hp] at h; exact absurd rfl h
  case h_3 => rfl
  case h_4 => rfl
  case h_5 => rfl

/-- Where no unit is left to run, H_RUN does not answer NEED_MORE (46_host_interface.md R474). -/
theorem runAtomic_of_no_unit (h : firstSlot s.phase = .idle) : (runAtomic s).result ≠ .needMore := by
  unfold runAtomic hRun
  split
  case h_1 => rw [coreRun_of_idle rfl]; exact RunResult.noConfusion
  case h_2 => rw [coreRun_of_idle rfl]; exact RunResult.noConfusion
  case h_3 hp => rw [hp] at h; cases h
  case h_4 hp => rw [hp] at h; cases h
  case h_5 hp => rw [hp] at h; cases h

theorem begins_hRun (hs : StructOk s) (hc : s.ctl = .idle) (hp : firstSlot s.phase ≠ .idle) : Begins (hRun s) := by
  rw [hRun_of_firstSlot hp]
  have hl := (controlOk_idle hc).mp (structOk_iff.mp hs).2
  exact begins_startUnit (hl.resolve_left fun he => hp (by rw [he]; rfl)) hp

/-- H_RUN of a suspended unit begins it again. -/
theorem Begins.hRun_suspended (hb : Begins s) : hRun (returnToHost .needMore s) = Machine.rerun s := by
  have hfirst : firstSlot s.phase ≠ .idle := fun h => hb.running (by rw [← hb.snapshot_taken]; exact h)
  rw [hRun_of_firstSlot (s := returnToHost .needMore s) hfirst]
  exact congrArg Machine.rerun hb.snapshot_taken

/-- A unit that began and suspended suspends again. -/
theorem Begins.runAtomic_suspended (hb : Begins s) (h : CoreReaches s (returnToHost .needMore s))
    (hs : StructOk (returnToHost .needMore s)) :
    runAtomic (returnToHost .needMore s) = returnToHost .needMore s := by
  have hstops := runAtomic_stops hs rfl
  rw [runAtomic, hb.hRun_suspended] at hstops ⊢
  exact (coreReaches_coreRun _ _).stop_unique hstops (h.rerun rfl) rfl

end

/-- Settles O27: the unit that suspended began on the way (`CoreReaches.last_unit`) and was left as it began, H_RUN begins it
again (`Begins.hRun_suspended`), and its steps do not look at what the last H_RUN answered (`step_rerun`). -/
theorem suspensionIsIdempotent : Obligations.SuspensionIsIdempotent := by
  unfold Obligations.SuspensionIsIdempotent
  intro s hs _ hc hresult
  have hfirst : firstSlot s.phase ≠ .idle := fun h => runAtomic_of_no_unit h hresult
  have hreach : CoreReaches (hRun s) (runAtomic s) := coreReaches_coreRun _ _
  have hstruct : StructOk (runAtomic s) := hreach.structOk ((hRun_hostNext s).structOk hc hs)
  have hstops := runAtomic_stops hs hc
  obtain ⟨b, hb, hbt, hcase⟩ := hreach.last_unit (begins_hRun hs hc hfirst)
  rcases hcase with heq | ⟨hidle, hn⟩ | ⟨hrun, -⟩
  · rw [heq] at hbt hstruct ⊢
    exact hb.runAtomic_suspended hbt hstruct
  · exact absurd hresult (hn hidle)
  · exact absurd hstops hrun

end Sys2Proof.Machine
end

section
/-! ## The encoding: which words decode, and what they encode (30_encoding.md R91 to R100) -/

namespace Sys2Proof.Machine

/-! ### The bits of FLG -/

/-- A bit of FLG, written with the mask of its row of the opcode table or with its number (30_encoding.md R92, R93). -/
theorem and_twoPow_ne_zero (flg : Byte) {bit : Nat} (h : bit < 8) :
    flg &&& BitVec.twoPow 8 bit ≠ 0 ↔ flg.getLsbD bit = true := by
  have hmask : BitVec.twoPow 8 bit ≠ 0 := by interval_cases bit <;> decide
  rw [BitVec.and_twoPow]
  split
  case isTrue hset => simp only [hmask, hset, ne_eq, not_false_eq_true]
  case isFalse hclear => simp [hclear]

theorem exists_decodeFlag_iff (flg : Byte) {bit : Nat} (h : bit < 8) (i : Instr) :
    (∃ j, decodeFlag bit i flg.toNat = .ok j) ↔ flg &&& BitVec.twoPow 8 bit ≠ 0 := by
  rw [and_twoPow_ne_zero flg h]
  refine ⟨fun ⟨j, hj⟩ => ?_, decodeFlag_total i⟩
  unfold decodeFlag at hj
  split at hj
  case isTrue hset => rwa [BitVec.testBit_toNat] at hset
  case isFalse => cases hj

/-! ### Round trips -/

/-- The word of a well-formed instruction decodes to it at its place (30_encoding.md R92 to R100). -/
theorem decode_encode {i : Instr} (h : i.wf = true) : decode (slotOf i) (encode i) = .ok i := by
  cases i with
  | blkStored f => exact Laws.RoundTrip.blkStored f h
  | blkFixed f => exact Laws.RoundTrip.blkFixed f h
  | blkDynamic f => exact Laws.RoundTrip.blkDynamic f h
  | blkReserved f => exact Laws.RoundTrip.blkReserved f h
  | clLen n => exact Laws.RoundTrip.clLen n h
  | lit b => exact Laws.RoundTrip.lit b h
  | illLen n => exact Laws.RoundTrip.illLen n h
  | illDist n => exact Laws.RoundTrip.illDist n h
  | gzId | gzCm | gzFlg | gzFixed | gzFextra | gzFname | gzFcomment | gzFhcrc | gzFtext | gzFlgRsv | stBody | dhCounts
  | dhCll | clRep | clZero3 | clZero11 | gzTrailer => rfl
  | eob | len257 | len258 | len259 | len260 | len261 | len262 | len263 | len264 | len265 | len266 | len267 | len268
  | len269 | len270 | len271 | len272 | len273 | len274 | len275 | len276 | len277 | len278 | len279 | len280 | len281
  | len282 | len283 | len284 | len285 => rfl
  | dist0 | dist1 | dist2 | dist3 | dist4 | dist5 | dist6 | dist7 | dist8 | dist9 | dist10 | dist11 | dist12 | dist13
  | dist14 | dist15 | dist16 | dist17 | dist18 | dist19 | dist20 | dist21 | dist22 | dist23 | dist24 | dist25 | dist26
  | dist27 | dist28 | dist29 => rfl

theorem encode_decodeBlockHeader {w : Nat} (h : w < 8) : encode (decodeBlockHeader w) = w := by
  interval_cases w <;> rfl

/-- A code-length word is the encoding of what it decodes to, and is a symbol of the alphabet 0..18 (R98). -/
theorem encode_of_decodeCodeLength {w : Nat} {i : Instr} (h : decodeCodeLength w = .ok i) : encode i = w ∧ w ≤ 18 := by
  unfold decodeCodeLength at h
  split at h
  case isTrue hw => cases h; exact ⟨rfl, by omega⟩
  case isFalse => split at h <;> cases h <;> exact ⟨rfl, by decide⟩

theorem encode_of_decodeLength {w : Nat} {i : Instr} (h : decodeLength w = .ok i) : encode i = w := by
  unfold decodeLength at h
  split at h <;> cases h <;> rfl

/-- The same of the literal/length alphabet 0..287 (R99). -/
theorem encode_of_decodeLiteralLength {w : Nat} {i : Instr} (h : decodeLiteralLength w = .ok i) :
    encode i = w ∧ w ≤ 287 := by
  unfold decodeLiteralLength at h
  split_ifs at h with h255 h256 h285 h287
  · cases h; exact ⟨Nat.mod_eq_of_lt (by omega), by omega⟩
  · cases h; exact ⟨h256.symm, by omega⟩
  · exact ⟨encode_of_decodeLength h, by omega⟩
  · cases h; exact ⟨rfl, h287⟩

/-- The same of the distance alphabet 0..31 (R100). -/
theorem encode_of_decodeDistance {w : Nat} {i : Instr} (h : decodeDistance w = .ok i) : encode i = w ∧ w ≤ 31 := by
  unfold decodeDistance at h
  split at h <;> cases h <;> exact ⟨rfl, by decide⟩

/-- A decoded word of a format that has words of its own is the encoding of what it decodes to. -/
theorem encode_of_decode {p : Slot} {w : Nat} {i : Instr} (h : decode p w = .ok i)
    (hp : p = .cl ∨ p = .ll ∨ p = .d ∨ (p = .bh ∧ w < 8)) : encode i = w := by
  rcases hp with rfl | rfl | rfl | ⟨rfl, hw⟩
  · exact (encode_of_decodeCodeLength h).1
  · exact (encode_of_decodeLiteralLength h).1
  · exact (encode_of_decodeDistance h).1
  · cases h; exact encode_decodeBlockHeader hw

/-- Every place but the optional header fields and the three alphabets decodes whatever the word is. -/
theorem decode_total_of_place {p : Slot} (w : Nat)
    (hp : p ∈ [.gzId, .gzCm, .gzFlg, .gzFlgRsv, .gzFixed, .bh, .stBody, .dhCounts, .dhCll, .trailer]) :
    ∃ i, decode p w = .ok i := by
  simp only [List.mem_cons, List.not_mem_nil, or_false] at hp
  rcases hp with rfl | rfl | rfl | rfl | rfl | rfl | rfl | rfl | rfl | rfl <;> exact ⟨_, rfl⟩

/-- Settles O1: each clause is an evaluation of the decoder on one word of the spec. -/
theorem specWordsDecode : Obligations.SpecWordsDecode := by
  unfold Obligations.SpecWordsDecode
  decide

/-- Settles O2: the round trip both ways (`decode_encode`, `encode_of_decode`), and where each decoder answers. -/
theorem decodeEncodeAgree : Obligations.DecodeEncodeAgree := by
  unfold Obligations.DecodeEncodeAgree
  refine ⟨fun _ => decode_encode, fun _ _ _ => decode_sound, fun _ _ _ => encode_of_decode, fun w => ?_, fun w => ?_,
    fun w => ?_, fun flg => ?_, fun _ w => decode_total_of_place w⟩
  · exact ⟨fun ⟨_, h⟩ => (encode_of_decodeCodeLength h).2, fun h => decode_cl_total (by omega)⟩
  · exact ⟨fun ⟨_, h⟩ => (encode_of_decodeLiteralLength h).2, fun h => decode_ll_total (by omega)⟩
  · exact ⟨fun ⟨_, h⟩ => (encode_of_decodeDistance h).2, fun h => decode_d_total (by omega)⟩
  · exact ⟨exists_decodeFlag_iff flg (bit := 0) (by decide) _, exists_decodeFlag_iff flg (bit := 1) (by decide) _,
      exists_decodeFlag_iff flg (bit := 2) (by decide) _, exists_decodeFlag_iff flg (bit := 3) (by decide) _,
      exists_decodeFlag_iff flg (bit := 4) (by decide) _⟩

/-- The choice of the next header field by a bit of FLG, whichever way the bit is written. -/
theorem ite_flagMask {α : Type} (flg : Byte) {bit : Nat} (h : bit < 8) (a b : α) :
    (if flg &&& BitVec.twoPow 8 bit ≠ 0 then a else b) = if flg.getLsbD bit then a else b :=
  if_congr (and_twoPow_ne_zero flg h) rfl rfl

/-- Settles O36: each field of R410 is selected by its bit of FLG, and the header's commit is the next unit's start. -/
theorem headerFieldOrder : Obligations.HeaderFieldOrder := by
  unfold Obligations.HeaderFieldOrder
  refine ⟨fun s => ?_, fun s => ?_, fun s => ?_, fun s => ?_, fun _ => rfl⟩
  · exact (ite_flagMask s.loc.flg (bit := 2) (by decide) _ _).symm
  · exact (ite_flagMask s.loc.flg (bit := 3) (by decide) _ _).symm
  · exact (ite_flagMask s.loc.flg (bit := 4) (by decide) _ _).symm
  · exact (ite_flagMask s.loc.flg (bit := 1) (by decide) _ _).symm

end Sys2Proof.Machine
end

section
/-! ## The constant tables: the values of a run of consecutive intervals (30_encoding.md R104, R106) -/

namespace Sys2Proof.Machine

/-! ### Intervals `b k .. b k + w k - 1` one after the other -/

section
variable {b w : Nat → Nat} {m n : Nat}

/-- Intervals that leave no gap between them reach every value of their range. -/
theorem exists_interval_of_no_gap (hgap : ∀ k < m, b (k + 1) ≤ b k + w k) (hlo : b 0 ≤ n) (hhi : n < b m + w m) :
    ∃ k ≤ m, b k ≤ n ∧ n < b k + w k := by
  induction m with
  | zero => exact ⟨0, le_rfl, hlo, hhi⟩
  | succ m ih =>
    rcases Nat.lt_or_ge n (b (m + 1)) with hlt | hge
    · have hprev := hgap m (by omega)
      obtain ⟨k, hk, hin⟩ := ih (fun k hk => hgap k (by omega)) (by omega)
      exact ⟨k, by omega, hin⟩
    · exact ⟨m + 1, le_rfl, hge, hhi⟩

/-- Of intervals that do not run into the next one, an earlier ends before a later begins. -/
theorem interval_end_le (hsep : ∀ k < m, b k + w k ≤ b (k + 1)) {i j : Nat} (hij : i < j) (hj : j ≤ m) :
    b i + w i ≤ b j := by
  induction j, hij using Nat.le_induction with
  | base => exact hsep i hj
  | succ j hij ih =>
    have hnext := hsep j hj
    have hprev := ih (by omega)
    omega

/-- No value lies in two of them. -/
theorem interval_unique (hsep : ∀ k < m, b k + w k ≤ b (k + 1)) {i j : Nat} (hi : i ≤ m) (hj : j ≤ m)
    (hni : b i ≤ n ∧ n < b i + w i) (hnj : b j ≤ n ∧ n < b j + w j) : i = j := by
  rcases Nat.lt_trichotomy i j with hlt | heq | hgt
  · have := interval_end_le hsep hlt hj
    omega
  · exact heq
  · have := interval_end_le hsep hgt hi
    omega

end

/-! ### LBASE, LEXTRA, DBASE and DEXTRA -/

theorem length_bounds : ∀ k < 29, 3 ≤ lbase.getD k 0 ∧ lbase.getD k 0 + 2 ^ lextra.getD k 0 ≤ Config.pLenMax + 1 := by
  decide

theorem distance_bounds :
    ∀ d < 30, 1 ≤ dbase.getD d 0 ∧ dbase.getD d 0 + 2 ^ dextra.getD d 0 ≤ Config.pWindow + 1 := by
  decide

theorem lbase_succ_le : ∀ k < 28, lbase.getD (k + 1) 0 ≤ lbase.getD k 0 + 2 ^ lextra.getD k 0 := by decide

/-- The distances of a symbol begin where those of the symbol before it end (R106). -/
theorem dbase_succ : ∀ d < 29, dbase.getD (d + 1) 0 = dbase.getD d 0 + 2 ^ dextra.getD d 0 := by decide

/-- Every length has a symbol and extra bits (R104). -/
theorem exists_length {n : Nat} (hlo : 3 ≤ n) (hhi : n ≤ Config.pLenMax) :
    ∃ k < 29, ∃ e < 2 ^ lextra.getD k 0, n = lbase.getD k 0 + e := by
  obtain ⟨k, hk, hb, he⟩ := exists_interval_of_no_gap (b := fun k => lbase.getD k 0)
    (w := fun k => 2 ^ lextra.getD k 0) lbase_succ_le hlo (Nat.lt_succ_of_le hhi)
  exact ⟨k, by omega, n - lbase.getD k 0, by omega, by omega⟩

/-- Every distance has exactly one symbol and extra value (R106). -/
theorem existsUnique_distance {n : Nat} (hlo : 1 ≤ n) (hhi : n ≤ Config.pWindow) :
    ∃! p : Nat × Nat, p.1 < 30 ∧ p.2 < 2 ^ dextra.getD p.1 0 ∧ n = dbase.getD p.1 0 + p.2 := by
  obtain ⟨d, hd, hb, he⟩ := exists_interval_of_no_gap (b := fun d => dbase.getD d 0)
    (w := fun d => 2 ^ dextra.getD d 0) (m := 29) (fun d hd => (dbase_succ d hd).le) hlo (Nat.lt_succ_of_le hhi)
  refine ⟨(d, n - dbase.getD d 0), ⟨by omega, by dsimp only; omega, by dsimp only; omega⟩, ?_⟩
  rintro ⟨d', e'⟩ ⟨hd', he', hn⟩
  dsimp only at hd' he' hn
  obtain rfl : d' = d :=
    interval_unique (b := fun d => dbase.getD d 0) (w := fun d => 2 ^ dextra.getD d 0) (n := n)
      (fun d hd => (dbase_succ d hd).ge) (by omega) hd ⟨by omega, by omega⟩ ⟨hb, he⟩
  exact Prod.ext rfl (by dsimp only; omega)

/-- Settles O49: the lists stand in the model as in the spec; the values of each symbol are an interval, and these
leave no gap (`exists_length`) and do not overlap (`existsUnique_distance`). -/
theorem lengthAndDistanceRanges : Obligations.LengthAndDistanceRanges := by
  unfold Obligations.LengthAndDistanceRanges
  refine ⟨rfl, rfl, rfl, rfl, rfl, fun k hk e he => ?_, fun d hd e he => ?_, fun _ => exists_length,
    fun _ => existsUnique_distance⟩
  · have := length_bounds k hk
    omega
  · have := distance_bounds d hd
    omega

end Sys2Proof.Machine
end

section
/-! ## Canonical Huffman codes are decoded by their table (41_huffman_table.md R172 to R176) -/

namespace Sys2Proof.Machine

/-! ### Bit reversal (R175) -/

theorem reverseBits_lt (c n : Nat) : reverseBits c n < 2 ^ n := by
  induction n generalizing c with
  | zero => exact Nat.one_pos
  | succ n ih =>
    have hrest := ih (c / 2)
    have hbit : c % 2 * 2 ^ n ≤ 1 * 2 ^ n := Nat.mul_le_mul_right _ (by omega)
    rw [reverseBits, Nat.pow_succ]
    omega

/-- The low bits of a reversed code are its first bits, reversed. -/
theorem reverseBits_mod (c n k : Nat) : reverseBits c (n + k) % 2 ^ n = reverseBits (c / 2 ^ k) n := by
  induction k generalizing c with
  | zero => simpa using Nat.mod_eq_of_lt (reverseBits_lt c n)
  | succ k ih =>
    have hdvd : 2 ^ n ∣ c % 2 * 2 ^ (n + k) := (Nat.pow_dvd_pow 2 (by omega)).mul_left _
    calc reverseBits c (n + k + 1) % 2 ^ n
        = (c % 2 * 2 ^ (n + k) + reverseBits (c / 2) (n + k)) % 2 ^ n := rfl
      _ = reverseBits (c / 2) (n + k) % 2 ^ n := by rw [Nat.add_mod, Nat.mod_eq_zero_of_dvd hdvd]; simp
      _ = reverseBits (c / 2 ^ (k + 1)) n := by rw [ih, Nat.div_div_eq_div_mul, Nat.pow_succ']

theorem reverseBits_injective {c d n : Nat} (hc : c < 2 ^ n) (hd : d < 2 ^ n) (h : reverseBits c n = reverseBits d n) :
    c = d := by
  induction n generalizing c d with
  | zero => omega
  | succ n ih =>
    rw [Nat.pow_succ] at hc hd
    have hmod (x : Nat) : reverseBits x (n + 1) % 2 ^ n = reverseBits (x / 2) n := reverseBits_mod x n 1
    have hrest : reverseBits (c / 2) n = reverseBits (d / 2) n := by rw [← hmod, ← hmod, h]
    have hhalf : c / 2 = d / 2 := ih (by omega) (by omega) hrest
    have hbit : c % 2 = d % 2 := by
      simp only [reverseBits, hrest] at h
      exact Nat.eq_of_mul_eq_mul_right (by positivity) (Nat.add_right_cancel h)
    omega

/-! ### The canonical code (R172) -/

/-- The code that R172 gives symbol `i` of length `l`: the codes of a length are consecutive, in ascending order of the
symbol (`getElem?_canonicalCodes`). -/
def canonicalCode (lens : List Nat) (i l : Nat) : Nat := firstCode lens l + (lens.take i).count l

theorem getElem?_assignCodes {ls next : List Nat} {k l : Nat} (hk : ls[k]? = some l) (h0 : l ≠ 0)
    (hl : l < next.length) : (assignCodes ls next)[k]? = some (next.getD l 0 + (ls.take k).count l) := by
  induction ls generalizing next k with
  | nil => simp at hk
  | cons a ls ih =>
    cases k with
    | zero =>
      obtain rfl : a = l := by simpa using hk
      simp [assignCodes, h0]
    | succ k =>
      rw [List.getElem?_cons_succ] at hk
      rw [assignCodes, List.take_succ_cons]
      split
      case isTrue ha =>
        rw [List.getElem?_cons_succ, ih hk hl, List.count_cons_of_ne (by omega)]
      case isFalse =>
        rw [List.getElem?_cons_succ, ih hk (by simpa using hl)]
        by_cases hal : a = l
        · subst hal
          simp [hl]
          omega
        · simp [List.getElem?_set_ne hal, hal]

section
variable {lens : List Nat} {i k l m : Nat}

theorem getElem?_canonicalCodes (hi : lens[i]? = some l) (h0 : l ≠ 0) (h15 : l ≤ Config.pMaxBits) :
    (canonicalCodes lens)[i]? = some (canonicalCode lens i l) := by
  have hl : l < Config.pMaxBits + 1 := Nat.lt_succ_of_le h15
  rw [canonicalCodes, getElem?_assignCodes hi h0 (by simpa [firstCodes] using hl)]
  simp [firstCodes, canonicalCode, hl]

theorem count_take_lt (hi : lens[i]? = some l) (hik : i < k) : (lens.take i).count l < (lens.take k).count l :=
  calc (lens.take i).count l < (lens.take (i + 1)).count l := by simp [List.take_add_one, hi]
    _ ≤ (lens.take k).count l := (List.take_sublist_take_left hik).count_le l

/-- The codes of a length end before the number of them is reached. -/
theorem canonicalCode_lt (hi : lens[i]? = some l) : canonicalCode lens i l < firstCode lens l + lens.count l := by
  have hlt := count_take_lt hi (List.getElem?_eq_some_iff.mp hi).1
  rw [List.take_length] at hlt
  exact Nat.add_lt_add_left hlt _

/-- The codes of a greater length begin behind the continuations of those of a lesser one (the first loop of R172). -/
theorem le_firstCode_of_lt (hl : l ≠ 0) (hlm : l < m) :
    (firstCode lens l + lens.count l) * 2 ^ (m - l) ≤ firstCode lens m := by
  induction m, hlm using Nat.le_induction with
  | base => simp [firstCode, hl]
  | succ m hlm ih =>
    have hm : m ≠ 0 := by omega
    rw [Nat.succ_sub (by omega), Nat.pow_succ, ← Nat.mul_assoc, firstCode, if_neg hm]
    exact Nat.mul_le_mul_right 2 (ih.trans (Nat.le_add_right _ _))

/-- No code is the beginning of another symbol's code. -/
theorem canonicalCode_prefixFree (hi : lens[i]? = some l) (hk : lens[k]? = some m) (hl : l ≠ 0) (hlm : l ≤ m)
    (h : canonicalCode lens k m / 2 ^ (m - l) = canonicalCode lens i l) : i = k := by
  rcases Nat.eq_or_lt_of_le hlm with rfl | hlt
  · have hcount : (lens.take k).count l = (lens.take i).count l := by simpa [canonicalCode] using h
    rcases Nat.lt_trichotomy i k with hik | hik | hik
    · exact absurd hcount (count_take_lt hi hik).ne'
    · exact hik
    · exact absurd hcount (count_take_lt hk hik).ne
  · have hfirst : firstCode lens l + lens.count l ≤ canonicalCode lens k m / 2 ^ (m - l) :=
      (Nat.le_div_iff_mul_le (by positivity)).mpr ((le_firstCode_of_lt hl hlt).trans (Nat.le_add_right _ _))
    exact absurd (h ▸ hfirst) (Nat.not_le.mpr (canonicalCode_lt hi))

/-! ### The check of R174 -/

theorem le_two_pow_of_prefixCodeLoop {n b : Nat} {left : Int} (hloop : prefixCodeLoop lens n b left = true) (hb : b ≠ 0)
    (hleft : 2 * left = 2 ^ b - firstCode lens b) (hbl : b ≤ l) (hln : l < b + n) :
    firstCode lens l + lens.count l ≤ 2 ^ l := by
  induction n generalizing b left with
  | zero => omega
  | succ n ih =>
    rw [prefixCodeLoop] at hloop
    split at hloop
    case isTrue => cases hloop
    case isFalse hnonneg =>
      rcases Nat.eq_or_lt_of_le hbl with rfl | hlt
      · zify; omega
      · refine ih hloop (by omega) ?_ hlt (by omega)
        rw [firstCode, if_neg hb]
        push_cast
        rw [pow_succ]
        omega

/-- The codes of an accepted vector fit into their lengths. -/
theorem canonicalCode_lt_two_pow (hp : isPrefixCode lens = true) (hi : lens[i]? = some l) (hl : l ≠ 0) :
    canonicalCode lens i l < 2 ^ l := by
  have hmax : l ≤ maxLen lens := le_maxLen (List.mem_of_getElem? hi)
  exact (canonicalCode_lt hi).trans_le
    (le_two_pow_of_prefixCodeLoop hp (by decide) (by simp [firstCode]) (Nat.one_le_iff_ne_zero.mpr hl) (by omega))

end

/-! ### The code words -/

theorem mem_codeWordsFrom_cons {i l c : Nat} {ls cs : List Nat} {w : CodeWord} :
    w ∈ codeWordsFrom i (l :: ls) (c :: cs) ↔
      (l ≠ 0 ∧ w = ⟨i, l, reverseBits c l⟩) ∨ w ∈ codeWordsFrom (i + 1) ls cs := by
  rw [codeWordsFrom]
  split <;> simp [*]

theorem mem_codeWordsFrom {i : Nat} {ls cs : List Nat} {w : CodeWord} :
    w ∈ codeWordsFrom i ls cs ↔
      ∃ k l c, ls[k]? = some l ∧ cs[k]? = some c ∧ l ≠ 0 ∧ w = ⟨i + k, l, reverseBits c l⟩ := by
  induction ls generalizing i cs with
  | nil => simp [codeWordsFrom]
  | cons l ls ih =>
    cases cs with
    | nil => simp [codeWordsFrom]
    | cons c cs =>
      rw [mem_codeWordsFrom_cons, ih]
      conv_rhs => rw [← Nat.or_exists_add_one]
      simp [Nat.add_assoc, Nat.add_comm 1]

section
variable {lens : List Nat} {w v : CodeWord} {j : Nat}

/-- The code words of a vector of code lengths (R172, R175). -/
theorem mem_codeWords (h15 : ∀ x ∈ lens, x ≤ Config.pMaxBits) :
    w ∈ codeWords lens ↔
      lens[w.sym]? = some w.len ∧ w.len ≠ 0 ∧ w.rev = reverseBits (canonicalCode lens w.sym w.len) w.len := by
  have hcode {i l : Nat} (hi : lens[i]? = some l) (h0 : l ≠ 0) := getElem?_canonicalCodes hi h0
    (h15 l (List.mem_of_getElem? hi))
  rw [codeWords, mem_codeWordsFrom]
  constructor
  · rintro ⟨i, l, c, hi, hc, h0, rfl⟩
    obtain rfl : canonicalCode lens i l = c := Option.some.inj ((hcode hi h0).symm.trans hc)
    simp [hi, h0]
  · rintro ⟨hi, h0, hrev⟩
    exact ⟨w.sym, w.len, _, hi, hcode hi h0, h0, by rw [Nat.zero_add, ← hrev]⟩

section
variable (h15 : ∀ x ∈ lens, x ≤ Config.pMaxBits) (hp : isPrefixCode lens = true) (hw : w ∈ codeWords lens)
  (hv : v ∈ codeWords lens) (hjw : j % 2 ^ w.len = w.rev) (hjv : j % 2 ^ v.len = v.rev)
include h15 hp hw hv hjw hjv

/-- Of two code words of an accepted vector that a slot's bits begin with, the shorter begins the longer, so they are one
symbol's. -/
theorem sym_eq_of_slot (hle : w.len ≤ v.len) : w.sym = v.sym := by
  obtain ⟨hwi, hw0, hwrev⟩ := (mem_codeWords h15).mp hw
  obtain ⟨hvi, hv0, hvrev⟩ := (mem_codeWords h15).mp hv
  have hlen : w.len + (v.len - w.len) = v.len := Nat.add_sub_of_le hle
  have hcw := canonicalCode_lt_two_pow hp hwi hw0
  have hcv := canonicalCode_lt_two_pow hp hvi hv0
  refine canonicalCode_prefixFree hwi hvi hw0 hle (reverseBits_injective ?_ hcw ?_)
  · rw [Nat.div_lt_iff_lt_mul (by positivity), ← Nat.pow_add, hlen]
    exact hcv
  · calc reverseBits (canonicalCode lens v.sym v.len / 2 ^ (v.len - w.len)) w.len
        = reverseBits (canonicalCode lens v.sym v.len) v.len % 2 ^ w.len := by rw [← reverseBits_mod, hlen]
      _ = j % 2 ^ w.len := by rw [← hvrev, ← hjv, Nat.mod_mod_of_dvd _ (Nat.pow_dvd_pow 2 hle)]
      _ = reverseBits (canonicalCode lens w.sym w.len) w.len := by rw [hjw, hwrev]

/-- No two symbols of an accepted vector write the same slot (R175). -/
theorem codeWord_unique : w = v := by
  have hsym : w.sym = v.sym := by
    rcases Nat.le_total w.len v.len with hle | hle
    · exact sym_eq_of_slot h15 hp hw hv hjw hjv hle
    · exact (sym_eq_of_slot h15 hp hv hw hjv hjw hle).symm
  obtain ⟨hwi, -, -⟩ := (mem_codeWords h15).mp hw
  obtain ⟨hvi, -, -⟩ := (mem_codeWords h15).mp hv
  have hlen : w.len = v.len := Option.some.inj (hwi.symm.trans (hsym ▸ hvi))
  have hrev : w.rev = v.rev := by rw [← hjw, ← hjv, hlen]
  calc w = ⟨w.sym, w.len, w.rev⟩ := rfl
    _ = v := by rw [hsym, hlen, hrev]

end

end

/-! ### The slots (R175, R176) -/

/-- A slot that one code word alone writes holds it. -/
theorem slotEntry_eq_of_unique {ws : List CodeWord} {w : CodeWord} {j : Nat} (hw : w ∈ ws) (hj : j % 2 ^ w.len = w.rev)
    (huniq : ∀ v ∈ ws, j % 2 ^ v.len = v.rev → v = w) : slotEntry ws j = (w.sym, w.len) := by
  induction ws using List.reverseRecOn with
  | nil => cases hw
  | append_singleton ws v ih =>
    rw [slotEntry, List.foldl_append, List.foldl_cons, List.foldl_nil]
    split
    case isTrue hv => rw [huniq v (by simp) hv]
    case isFalse hv =>
      have hne : w ≠ v := fun heq => hv (heq ▸ hj)
      have hmem : w ∈ ws := by simpa [hne] using hw
      exact ih hmem fun x hx => huniq x (List.mem_append_left _ hx)

theorem codeLen_fillTable {lens : List Nat} {j : Nat} (h : j < 2 ^ maxLen lens) :
    (fillTable lens).codeLen.getD j 0 = (slotEntry (codeWords lens) j).2 := by
  simp [fillTable, slotList, h]

theorem symbol_fillTable {lens : List Nat} {j : Nat} (h : j < 2 ^ maxLen lens) :
    (fillTable lens).symbol.getD j 0 = (slotEntry (codeWords lens) j).1 := by
  simp [fillTable, slotList, h]

theorem build_eq_ok {lens : List Nat} {t : Table} (h : build lens = .ok t) :
    isPrefixCode lens = true ∧ t = fillTable lens := by
  unfold build at h
  split at h
  · cases h
  · split at h
    case isTrue hp => cases h; exact ⟨hp, rfl⟩
    case isFalse => cases h

theorem m_of_build {lens : List Nat} {t : Table} (h : build lens = .ok t) : t.m = maxLen lens := by
  rw [(build_eq_ok h).2]
  rfl

/-- `Decode` where the slot that the pending bits select holds a symbol (R176). -/
theorem decodeSymbol_of_slot {t : Table} {i l : Nat} {s : State} (hb : BitsOk s.brBuf s.brLen) (hm : t.m ≤ 16)
    (ha : t.m ≤ availBits s) (hlen : t.codeLen.getD (slotIndex t s) 0 = l) (h0 : l ≠ 0)
    (hsym : t.symbol.getD (slotIndex t s) 0 = i) : decodeSymbol t s = .ready i (brDrop l (peeked t.m s)) := by
  subst hlen hsym
  rw [decodeSymbol, brPeek_ready hb hm ha, bind_ready]
  exact if_neg h0

/-- `Decode` of a coded symbol: where the pending bits begin with its code, most significant bit first, it is read and
consumed (R176; 00_scope.md R11). -/
theorem decodeSymbol_canonicalCode {lens : List Nat} {t : Table} {i l : Nat} {s : State}
    (h15 : ∀ x ∈ lens, x ≤ Config.pMaxBits) (hbuild : build lens = .ok t) (hi : lens[i]? = some l) (h0 : l ≠ 0)
    (hb : BitsOk s.brBuf s.brLen) (ha : t.m ≤ availBits s)
    (hcode : pending s % 2 ^ l = reverseBits (canonicalCode lens i l) l) :
    decodeSymbol t s = .ready i (brDrop l (peeked t.m s)) := by
  obtain ⟨hp, rfl⟩ := build_eq_ok hbuild
  have hm : maxLen lens ≤ 15 := maxLen_le h15
  have hl : l ≤ maxLen lens := le_maxLen (List.mem_of_getElem? hi)
  have hlt : slotIndex (fillTable lens) s < 2 ^ maxLen lens := Nat.mod_lt _ (by positivity)
  have hslot : slotIndex (fillTable lens) s % 2 ^ l = reverseBits (canonicalCode lens i l) l :=
    (Nat.mod_mod_of_dvd _ (Nat.pow_dvd_pow 2 hl)).trans hcode
  have hw : ⟨i, l, reverseBits (canonicalCode lens i l) l⟩ ∈ codeWords lens := (mem_codeWords h15).mpr ⟨hi, h0, rfl⟩
  have hentry : slotEntry (codeWords lens) (slotIndex (fillTable lens) s) = (i, l) :=
    slotEntry_eq_of_unique hw hslot fun v hv hj => codeWord_unique h15 hp hv hw hj hslot
  exact decodeSymbol_of_slot hb (hm.trans (by decide)) ha (by rw [codeLen_fillTable hlt, hentry]) h0
    (by rw [symbol_fillTable hlt, hentry])

end Sys2Proof.Machine
end

section
/-! ## The fixed codes and the block header in the stream (30_encoding.md R94, R103) -/

namespace Sys2Proof.Machine

/-! ### The vectors of R180 and the codes of R103 -/

theorem count_fixedLitLengths (l : Nat) : fixedLitLengths.count l =
    (if l = 7 then 24 else 0) + (if l = 8 then 152 else 0) + if l = 9 then 112 else 0 := by
  simp only [fixedLitLengths, List.count_append, List.count_replicate, beq_iff_eq]
  split_ifs <;> omega

theorem count_fixedDistLengths (l : Nat) : fixedDistLengths.count l = if l = 5 then 32 else 0 := by
  simp only [fixedDistLengths, List.count_replicate, beq_iff_eq]
  split_ifs <;> omega

theorem mem_fixedLitLengths {x : Nat} : x ∈ fixedLitLengths ↔ x = 7 ∨ x = 8 ∨ x = 9 := by
  simp only [fixedLitLengths, List.mem_append, List.mem_replicate]
  omega

theorem mem_fixedDistLengths {x : Nat} : x ∈ fixedDistLengths ↔ x = 5 := by
  simp only [fixedDistLengths, List.mem_replicate]
  omega

theorem maxLen_fixedLitLengths : maxLen fixedLitLengths = 9 :=
  le_antisymm (maxLen_le fun x hx => by have := mem_fixedLitLengths.mp hx; omega)
    (le_maxLen (mem_fixedLitLengths.mpr (by decide)))

theorem maxLen_fixedDistLengths : maxLen fixedDistLengths = 5 :=
  le_antisymm (maxLen_le fun _ hx => (mem_fixedDistLengths.mp hx).le) (le_maxLen (mem_fixedDistLengths.mpr rfl))

theorem fixedLitLengths_le : ∀ x ∈ fixedLitLengths, x ≤ Config.pMaxBits := fun _ hx =>
  (le_maxLen hx).trans (maxLen_fixedLitLengths.trans_le (by decide))

theorem fixedDistLengths_le : ∀ x ∈ fixedDistLengths, x ≤ Config.pMaxBits := fun _ hx =>
  (le_maxLen hx).trans (maxLen_fixedDistLengths.trans_le (by decide))

/-- A ROM table is the built one, when its vector is accepted. -/
theorem build_romTable {lens : List Nat} (hne : ∃ x ∈ lens, x ≠ 0) (hp : isPrefixCode lens = true) :
    build lens = .ok (romTable lens) := by
  have hall : ¬ lens.all (· == 0) = true := by simpa using hne
  have hbuild : build lens = .ok (fillTable lens) := by rw [build, if_neg hall, if_pos hp]
  rw [romTable, hbuild]

theorem build_fixedLitLengths : build fixedLitLengths = .ok fixedLitT := by
  refine build_romTable ⟨8, mem_fixedLitLengths.mpr (by decide), by decide⟩ ?_
  simp [isPrefixCode, maxLen_fixedLitLengths, prefixCodeLoop, count_fixedLitLengths]

theorem build_fixedDistLengths : build fixedDistLengths = .ok fixedDistT := by
  refine build_romTable ⟨5, mem_fixedDistLengths.mpr rfl, by decide⟩ ?_
  simp [isPrefixCode, maxLen_fixedDistLengths, prefixCodeLoop, count_fixedDistLengths]

theorem fixedLitT_m : fixedLitT.m = 9 := (m_of_build build_fixedLitLengths).trans maxLen_fixedLitLengths

theorem fixedDistT_m : fixedDistT.m = 5 := (m_of_build build_fixedDistLengths).trans maxLen_fixedDistLengths

theorem getElem?_fixedLitLengths {sym : Nat} (h : sym ≤ 287) : fixedLitLengths[sym]? = some (fixedLitCode sym).2 := by
  simp only [fixedLitLengths, List.getElem?_append, List.getElem?_replicate, List.length_append, List.length_replicate]
  grind [fixedLitCode]

theorem getElem?_fixedDistLengths {sym : Nat} (h : sym ≤ 31) : fixedDistLengths[sym]? = some (fixedDistCode sym).2 := by
  simp only [fixedDistLengths, List.getElem?_replicate, if_pos (Nat.lt_succ_of_le h)]
  rfl

/-- How many of the first `n` symbols have length `l`, run by run of R180's vector. -/
theorem count_take_fixedLitLengths (n l : Nat) : (fixedLitLengths.take n).count l =
    (if l = 8 then min n 144 else 0) + (if l = 9 then min (n - 144) 112 else 0)
      + (if l = 7 then min (n - 256) 24 else 0) + if l = 8 then min (n - 280) 8 else 0 := by
  simp only [fixedLitLengths, List.take_append, List.take_replicate, List.count_append, List.count_replicate,
    List.length_append, List.length_replicate, beq_iff_eq]
  split_ifs <;> omega

/-- The canonical code of R172 over the lengths of R180 is the fixed code of R103. -/
theorem canonicalCode_fixedLit {sym : Nat} (h : sym ≤ 287) :
    canonicalCode fixedLitLengths sym (fixedLitCode sym).2 = (fixedLitCode sym).1 := by
  have h7 : firstCode fixedLitLengths 7 = 0 := by simp [firstCode, count_fixedLitLengths]
  have h8 : firstCode fixedLitLengths 8 = 48 := by simp [firstCode, count_fixedLitLengths]
  have h9 : firstCode fixedLitLengths 9 = 400 := by simp [firstCode, count_fixedLitLengths]
  unfold fixedLitCode canonicalCode
  split_ifs <;> simp only [h7, h8, h9, count_take_fixedLitLengths, Nat.reduceEqDiff, reduceIte] <;> omega

theorem canonicalCode_fixedDist {sym : Nat} (h : sym ≤ 31) :
    canonicalCode fixedDistLengths sym (fixedDistCode sym).2 = (fixedDistCode sym).1 := by
  have h5 : firstCode fixedDistLengths 5 = 0 := by simp [firstCode, count_fixedDistLengths]
  have hcount : (fixedDistLengths.take sym).count 5 = min sym 32 := by
    simp only [fixedDistLengths, List.take_replicate, List.count_replicate_self]
  rw [canonicalCode, fixedDistCode, h5, hcount]
  omega

/-! ### The fetch (42_deflate_blocks.md R202; 41_huffman_table.md R176) -/

section
variable {s : State} {sym : Nat}

/-- `Decode` with FIXED_LIT_T of a fixed literal/length code (R103). -/
theorem decodeSymbol_fixedLit (hsym : sym ≤ 287) (hb : BitsOk s.brBuf s.brLen) (ha : 9 ≤ availBits s)
    (hcode : pending s % 2 ^ (fixedLitCode sym).2 = reverseBits (fixedLitCode sym).1 (fixedLitCode sym).2) :
    decodeSymbol fixedLitT s = .ready sym (brDrop (fixedLitCode sym).2 (peeked 9 s)) := by
  have h0 : (fixedLitCode sym).2 ≠ 0 := by unfold fixedLitCode; split_ifs <;> exact Nat.succ_ne_zero _
  rw [← fixedLitT_m] at ha ⊢
  exact decodeSymbol_canonicalCode fixedLitLengths_le build_fixedLitLengths (getElem?_fixedLitLengths hsym) h0
    hb ha (by rw [canonicalCode_fixedLit hsym, hcode])

/-- `Decode` with FIXED_DIST_T of a fixed distance code (R103). -/
theorem decodeSymbol_fixedDist (hsym : sym ≤ 31) (hb : BitsOk s.brBuf s.brLen) (ha : 5 ≤ availBits s)
    (hcode : pending s % 2 ^ (fixedDistCode sym).2 = reverseBits (fixedDistCode sym).1 (fixedDistCode sym).2) :
    decodeSymbol fixedDistT s = .ready sym (brDrop (fixedDistCode sym).2 (peeked 5 s)) := by
  rw [← fixedDistT_m] at ha ⊢
  exact decodeSymbol_canonicalCode fixedDistLengths_le build_fixedDistLengths (getElem?_fixedDistLengths hsym)
    (show 5 ≠ 0 by decide) hb ha (by rw [canonicalCode_fixedDist hsym, hcode])

/-- The block header is its three bits, BFINAL first (R94). -/
theorem fetch_bh_ready (hb : BitsOk s.brBuf s.brLen) (ha : 3 ≤ availBits s) :
    fetch .bh s = .ready (decode .bh (pending s % 8)) (drawn 2 (drawn 1 s)) := by
  have hb1 := bitsOk_drawn (n := 1) hb (by decide)
  have ha1 : 2 ≤ availBits (drawn 1 s) := by rw [availBits_drawn (by omega)]; omega
  have hword : pending s % 2 ^ 1 + 2 * (pending s / 2 ^ 1 % 2 ^ 2) = pending s % 8 := by omega
  rw [fetch, brShift_ready hb (by decide) (by omega), bind_ready, brShift_ready hb1 (by decide) ha1, bind_ready,
    pending_drawn hb (by decide) (by omega), hword]

end

section
variable {i : Instr}

theorem streamWord_of_bh (hi : slotOf i = .bh) : streamWord i = (encode i, 3) := by rw [streamWord, hi]

theorem streamWord_of_ll (hi : slotOf i = .ll) : streamWord i =
    (reverseBits (fixedLitCode (encode i)).1 (fixedLitCode (encode i)).2, (fixedLitCode (encode i)).2) := by
  rw [streamWord, hi]

theorem streamWord_of_d (hi : slotOf i = .d) : streamWord i =
    (reverseBits (fixedDistCode (encode i)).1 (fixedDistCode (encode i)).2, (fixedDistCode (encode i)).2) := by
  rw [streamWord, hi]

end

/-- Settles O3: the header is read bit by bit (`fetch_bh_ready`); the fixed codes are their vectors' canonical ones,
and those are decoded (`decodeSymbol_fixedLit`, `decodeSymbol_fixedDist`); the symbol read is the instruction's word. -/
theorem fixedCodesAreFetched : Obligations.FixedCodesAreFetched := by
  unfold Obligations.FixedCodesAreFetched
  intro i s hwf hb hword
  have hdecode := decode_encode hwf
  refine ⟨fun hi ha => ?_, fun hi htype ha => ?_, fun hi htype ha => ?_⟩
  · rw [hi] at hdecode
    rw [streamWord_of_bh hi] at hword
    rw [fetch_bh_ready hb ha, show pending s % 8 = encode i from hword, hdecode]
  · rw [hi] at hdecode
    rw [streamWord_of_ll hi] at hword ⊢
    have hsym : encode i ≤ 287 := (encode_of_decodeLiteralLength hdecode).2
    rw [fetch, litTable, if_pos htype, decodeSymbol_fixedLit hsym hb ha hword, bind_ready, hdecode]
  · rw [hi] at hdecode
    rw [streamWord_of_d hi] at hword ⊢
    have hsym : encode i ≤ 31 := (encode_of_decodeDistance hdecode).2
    rw [fetch, distTable, if_pos htype, decodeSymbol_fixedDist hsym hb ha hword, bind_ready, hdecode]

end Sys2Proof.Machine
end

section
/-! ## What Build answers: its checks and its table (41_huffman_table.md R173 to R175, R179) -/

namespace Sys2Proof.Machine

/-! ### The largest and the smallest code length -/

theorem maxLen_mem {lens : List Nat} (h : lens ≠ []) : maxLen lens ∈ lens := by
  obtain ⟨l, ls, rfl⟩ := List.exists_cons_of_ne_nil h
  have hmax : (l :: ls).max? = some (maxLen (l :: ls)) := by
    rw [List.max?_cons', maxLen, List.foldl_cons, Nat.zero_max]
  exact List.max?_mem hmax

/-- The fold of `minLen` from a non-zero start is the minimum. -/
theorem foldl_minNonZero {ls : List Nat} {a : Nat} (ha : a ≠ 0) (hls : ∀ x ∈ ls, x ≠ 0) :
    ls.foldl (fun a l => if a = 0 then l else min a l) a = ls.foldl min a := by
  induction ls generalizing a with
  | nil => rfl
  | cons l ls ih =>
    obtain ⟨hl, hls⟩ := List.forall_mem_cons.mp hls
    rw [List.foldl_cons, List.foldl_cons, if_neg ha, ih (by omega) hls]

theorem min?_filter_eq_minLen {lens : List Nat} (h : ∃ x ∈ lens, x ≠ 0) :
    (lens.filter (· ≠ 0)).min? = some (minLen lens) := by
  obtain ⟨x, hx, h0⟩ := h
  have hmem : x ∈ lens.filter (· ≠ 0) := List.mem_filter.mpr ⟨hx, decide_eq_true h0⟩
  obtain ⟨l, ls, hcoded⟩ := List.exists_cons_of_ne_nil (List.ne_nil_of_mem hmem)
  have hne : ∀ y ∈ l :: ls, y ≠ 0 := by
    intro y hy
    rw [← hcoded] at hy
    simpa using (List.mem_filter.mp hy).2
  obtain ⟨hl, hls⟩ := List.forall_mem_cons.mp hne
  rw [minLen, hcoded, List.min?_cons', List.foldl_cons, if_pos rfl, foldl_minNonZero hl hls]

/-- `min` is the smallest of the non-zero code lengths (R175). -/
theorem minLen_least {lens : List Nat} (h : ∃ x ∈ lens, x ≠ 0) :
    minLen lens ∈ lens ∧ 0 < minLen lens ∧ ∀ x ∈ lens, 0 < x → minLen lens ≤ x := by
  obtain ⟨hmem, hle⟩ := List.min?_eq_some_iff.mp (min?_filter_eq_minLen h)
  obtain ⟨hmem, h0⟩ := List.mem_filter.mp hmem
  exact ⟨hmem, Nat.pos_of_ne_zero (of_decide_eq_true h0),
    fun x hx hpos => hle x (List.mem_filter.mpr ⟨hx, decide_eq_true hpos.ne'⟩)⟩

/-! ### The two orders of the fill (R175) -/

theorem slotEntry_append_singleton (ws : List CodeWord) (w : CodeWord) (j : Nat) :
    slotEntry (ws ++ [w]) j = if j % 2 ^ w.len = w.rev then (w.sym, w.len) else slotEntry ws j := by
  simp [slotEntry]

/-- One symbol's writes, seen from the slots. -/
theorem writeSymbol_slotList (ws : List CodeWord) (w : CodeWord) (m : Nat) :
    writeSymbol w (slotList ws m) = slotList (ws ++ [w]) m := by
  refine List.ext_getElem (by simp [writeSymbol, slotList]) fun j _ _ => ?_
  simp [writeSymbol, slotList, slotEntry_append_singleton]

/-- Symbol by symbol or slot by slot, the same slots are written. -/
theorem foldl_writeSymbol (ws : List CodeWord) (m : Nat) :
    ws.foldl (fun slots w => writeSymbol w slots) (List.replicate (2 ^ m) (0, 0)) = slotList ws m := by
  induction ws using List.reverseRecOn with
  | nil => exact List.ext_getElem (by simp [slotList]) fun _ _ _ => by simp [slotList, slotEntry]
  | append_singleton ws w ih => rw [List.foldl_append, ih, ← writeSymbol_slotList]; rfl

theorem fillSpecLoop_eq_slotList (lens : List Nat) : fillSpecLoop lens = slotList (codeWords lens) (maxLen lens) :=
  foldl_writeSymbol _ _

theorem zip_fillTable (lens : List Nat) :
    (fillTable lens).symbol.zip (fillTable lens).codeLen = slotList (codeWords lens) (maxLen lens) := by
  simp [fillTable, List.zip_map']

/-! ### The checks (R173, R174) -/

theorem build_eq_emptyCode_iff {lens : List Nat} : build lens = .error .emptyCode ↔ ∀ x ∈ lens, x = 0 := by
  unfold build
  split
  case isTrue hall => simpa using hall
  case isFalse hall =>
    have hne : ¬ ∀ x ∈ lens, x = 0 := by simpa using hall
    split <;> simp [hne]

/-- Past R173's check the answer is R174's. -/
theorem build_of_coded {lens : List Nat} (h : ∃ x ∈ lens, x ≠ 0) :
    build lens = if isPrefixCode lens then .ok (fillTable lens) else .error .oversubscribed := by
  rw [build, if_neg (by simpa using h)]

theorem coded_iff_build_ne_emptyCode {lens : List Nat} : (∃ x ∈ lens, x ≠ 0) ↔ build lens ≠ .error .emptyCode := by
  rw [Ne, build_eq_emptyCode_iff]
  push Not
  rfl

theorem build_eq_oversubscribed_iff {lens : List Nat} :
    build lens = .error .oversubscribed ↔ (∃ x ∈ lens, x ≠ 0) ∧ ¬ isPrefixCode lens = true := by
  refine ⟨fun h => ?_, fun ⟨hcoded, hp⟩ => by rw [build_of_coded hcoded, if_neg hp]⟩
  have hcoded : ∃ x ∈ lens, x ≠ 0 := coded_iff_build_ne_emptyCode.mpr (by rw [h]; decide)
  refine ⟨hcoded, fun hp => ?_⟩
  rw [build_of_coded hcoded, if_pos hp] at h
  cases h

theorem exists_build_eq_ok_iff {lens : List Nat} :
    (∃ t, build lens = .ok t) ↔ (∃ x ∈ lens, x ≠ 0) ∧ isPrefixCode lens = true := by
  refine ⟨fun ⟨t, h⟩ => ⟨coded_iff_build_ne_emptyCode.mpr (by rw [h]; nofun), (build_eq_ok h).1⟩,
    fun ⟨hcoded, hp⟩ => ⟨fillTable lens, by rw [build_of_coded hcoded, if_pos hp]⟩⟩

/-- Settles O5: `m` and `min` are the extremes of the code lengths (`maxLen_mem`, `minLen_least`), both orders of the fill
write the same slots (`foldl_writeSymbol`), and no code begins another (`codeWord_unique`). -/
theorem tableFillIsTheSpecLoop : Obligations.TableFillIsTheSpecLoop := by
  unfold Obligations.TableFillIsTheSpecLoop
  intro lens t h15 hbuild
  obtain ⟨hp, rfl⟩ := build_eq_ok hbuild
  obtain ⟨⟨x, hx, h0⟩, -⟩ := exists_build_eq_ok_iff.mp ⟨_, hbuild⟩
  obtain ⟨-, hsymbol, hcodeLen, -, -⟩ := build_table_ok hbuild h15
  exact ⟨⟨maxLen_mem (List.ne_nil_of_mem hx), fun _ hy => le_maxLen hy⟩, minLen_least ⟨x, hx, h0⟩,
    (zip_fillTable lens).trans (fillSpecLoop_eq_slotList lens).symm, hsymbol, hcodeLen,
    fun _ hw _ hv _ _ hjw hjv => codeWord_unique h15 hp hw hv hjw hjv⟩

/-- Settles O6: the code of R172 is `canonicalCode`, and its table decodes it (`decodeSymbol_canonicalCode`). -/
theorem canonicalCodesAreDecoded : Obligations.CanonicalCodesAreDecoded := by
  unfold Obligations.CanonicalCodesAreDecoded
  intro lens t i s h15 hbuild hpos hb ha hcode
  have hi : lens[i]? = some (lens.getD i 0) := by
    cases hget : lens[i]? with
    | none => simp [hget] at hpos
    | some l => simp [hget]
  have hcanonical : (canonicalCodes lens).getD i 0 = canonicalCode lens i (lens.getD i 0) := by
    rw [List.getD, getElem?_canonicalCodes hi hpos.ne' (h15 _ (List.mem_of_getElem? hi)), Option.getD_some]
  exact decodeSymbol_canonicalCode h15 hbuild hi hpos.ne' hb ha (hcanonical ▸ hcode)

/-! ### The words that the codes use (R174) -/

/-- How many of the `2^b` words of `b` bits the codes of length up to `b` use. -/
def usedWords (lens : List Nat) (b : Nat) : Nat := ∑ k ∈ Finset.Icc 1 b, lens.count k * 2 ^ (b - k)

theorem usedWords_zero (lens : List Nat) : usedWords lens 0 = 0 := by simp [usedWords]

theorem usedWords_succ (lens : List Nat) (b : Nat) :
    usedWords lens (b + 1) = 2 * usedWords lens b + lens.count (b + 1) := by
  have hdouble : ∑ k ∈ Finset.Icc 1 b, lens.count k * 2 ^ (b + 1 - k) = 2 * usedWords lens b := by
    rw [usedWords, Finset.mul_sum]
    refine Finset.sum_congr rfl fun k hk => ?_
    rw [Nat.succ_sub (Finset.mem_Icc.mp hk).2, Nat.pow_succ]
    ring
  rw [usedWords, Finset.sum_Icc_succ_top (Nat.le_add_left 1 b), hdouble, Nat.sub_self, Nat.pow_zero, Nat.mul_one]

/-- The loop's `left` after round `b` is `2^b` less the words used, so the loop answers whether they fit in each round. -/
theorem prefixCodeLoop_iff (lens : List Nat) (n b : Nat) :
    prefixCodeLoop lens n (b + 1) (2 ^ b - usedWords lens b) = true ↔
      ∀ c, b < c → c ≤ b + n → usedWords lens c ≤ 2 ^ c := by
  induction n generalizing b with
  | zero => simp only [prefixCodeLoop, true_iff]; omega
  | succ n ih =>
    have hleft : 2 * (2 ^ b - (usedWords lens b : Int)) - lens.count (b + 1) =
        2 ^ (b + 1) - usedWords lens (b + 1) := by
      rw [usedWords_succ]; push_cast; ring
    simp only [prefixCodeLoop, hleft]
    split
    case isTrue hneg =>
      have hover : ¬ usedWords lens (b + 1) ≤ 2 ^ (b + 1) := by zify; omega
      simp only [Bool.false_eq_true, false_iff]
      exact fun hfits => hover (hfits (b + 1) (by omega) (by omega))
    case isFalse hnonneg =>
      have hfit : usedWords lens (b + 1) ≤ 2 ^ (b + 1) := by zify; omega
      rw [ih]
      refine ⟨fun hfits c hbc hcn => ?_, fun hfits c hbc hcn => hfits c (by omega) (by omega)⟩
      rcases Nat.eq_or_lt_of_le hbc with rfl | hlt
      · exact hfit
      · exact hfits c hlt (by omega)

theorem isPrefixCode_iff (lens : List Nat) :
    isPrefixCode lens = true ↔ ∀ b ≤ maxLen lens, usedWords lens b ≤ 2 ^ b := by
  have hloop : isPrefixCode lens = true ↔ ∀ b, 0 < b → b ≤ maxLen lens → usedWords lens b ≤ 2 ^ b := by
    simpa [isPrefixCode, usedWords_zero] using prefixCodeLoop_iff lens (maxLen lens) 0
  rw [hloop]
  refine ⟨fun hfits b hb => ?_, fun hfits b _ hb => hfits b hb⟩
  rcases Nat.eq_zero_or_pos b with rfl | hpos
  · simp [usedWords_zero]
  · exact hfits b hpos hb

/-- Settles O4: the first check is R173's (`build_eq_emptyCode_iff`), the second compares the words used with those there
are, length by length (`isPrefixCode_iff`). -/
theorem buildRejectsOversubscribedCodes : Obligations.BuildRejectsOversubscribedCodes := by
  unfold Obligations.BuildRejectsOversubscribedCodes
  intro lens
  have hp : isPrefixCode lens = true ↔
      ∀ b ≤ maxLen lens, ∑ k ∈ Finset.Icc 1 b, lens.count k * 2 ^ (b - k) ≤ 2 ^ b := isPrefixCode_iff lens
  refine ⟨build_eq_emptyCode_iff, ?_, ?_⟩
  · rw [build_eq_oversubscribed_iff, hp]
    push Not
    rfl
  · rw [exists_build_eq_ok_iff, hp]

/-! ### A code of one symbol (R179) -/

/-- A slot that no code word writes stays empty. -/
theorem slotEntry_eq_empty {ws : List CodeWord} {j : Nat} (h : ∀ w ∈ ws, j % 2 ^ w.len ≠ w.rev) :
    slotEntry ws j = (0, 0) := by
  induction ws using List.reverseRecOn with
  | nil => rfl
  | append_singleton ws w ih =>
    rw [slotEntry_append_singleton, if_neg (h w (by simp))]
    exact ih fun v hv => h v (List.mem_append_left _ hv)

section
variable {lens : List Nat} {i : Nat} (hi : lens.getD i 0 = 1) (hrest : ∀ j, j ≠ i → lens.getD j 0 = 0)
include hi

theorem getElem?_of_singleCode : lens[i]? = some 1 := by
  cases h : lens[i]? with
  | none => simp [h] at hi
  | some l => simpa [h] using hi

include hrest

/-- The vector written out. -/
theorem eq_set_of_singleCode : lens = (List.replicate lens.length 0).set i 1 := by
  refine List.ext_getElem (by simp) fun j hj _ => ?_
  rw [List.getElem_set]
  split
  case isTrue h => subst h; rwa [List.getD_eq_getElem _ _ hj] at hi
  case isFalse h => simpa [hj] using hrest j (Ne.symm h)

theorem coded_of_singleCode {k l : Nat} (hk : lens[k]? = some l) (h0 : l ≠ 0) : k = i ∧ l = 1 := by
  have hl : lens.getD k 0 = l := by simp [hk]
  by_cases hki : k = i
  · exact ⟨hki, hl.symm.trans (hki ▸ hi)⟩
  · exact absurd (hl.symm.trans (hrest k hki)) h0

theorem le_one_of_singleCode : ∀ x ∈ lens, x ≤ 1 := by
  intro x hx
  obtain ⟨k, hk⟩ := List.mem_iff_getElem?.mp hx
  by_cases h0 : x = 0
  · omega
  · exact (coded_of_singleCode hi hrest hk h0).2.le

theorem maxLen_of_singleCode : maxLen lens = 1 :=
  le_antisymm (maxLen_le (le_one_of_singleCode hi hrest)) (le_maxLen (List.mem_of_getElem? (getElem?_of_singleCode hi)))

theorem isPrefixCode_of_singleCode : isPrefixCode lens = true := by
  have hlt : i < lens.length := (List.getElem?_eq_some_iff.mp (getElem?_of_singleCode hi)).1
  have hcount : lens.count 1 = 1 := by
    rw [eq_set_of_singleCode hi hrest, List.count_set (by simpa using hlt)]
    simp [List.count_replicate]
  rw [isPrefixCode, maxLen_of_singleCode hi hrest]
  simp [prefixCodeLoop, hcount]

/-- The one code word: the 1-bit code 0 (R172). -/
theorem mem_codeWords_of_singleCode {w : CodeWord} : w ∈ codeWords lens ↔ w = ⟨i, 1, 0⟩ := by
  have hcode : reverseBits (canonicalCode lens i 1) 1 = 0 := by
    have hnone : (lens.take i).count 1 = 0 := by
      rw [eq_set_of_singleCode hi hrest, List.take_set_of_le le_rfl]
      simp [List.count_replicate]
    simp [canonicalCode, firstCode, hnone, reverseBits]
  rw [mem_codeWords fun x hx => (le_one_of_singleCode hi hrest x hx).trans (by decide)]
  constructor
  · rintro ⟨hw, h0, hrev⟩
    obtain ⟨hsym, hlen⟩ := coded_of_singleCode hi hrest hw h0
    rw [hsym, hlen, hcode] at hrev
    calc w = ⟨w.sym, w.len, w.rev⟩ := rfl
      _ = ⟨i, 1, 0⟩ := by rw [hsym, hlen, hrev]
  · rintro rfl
    exact ⟨getElem?_of_singleCode hi, Nat.one_ne_zero, hcode.symm⟩

theorem slotList_of_singleCode : slotList (codeWords lens) 1 = [(i, 1), (0, 0)] := by
  have hword {w : CodeWord} := mem_codeWords_of_singleCode hi hrest (w := w)
  have hzero : slotEntry (codeWords lens) 0 = (i, 1) :=
    slotEntry_eq_of_unique (hword.mpr rfl) rfl fun v hv _ => hword.mp hv
  have hone : slotEntry (codeWords lens) 1 = (0, 0) :=
    slotEntry_eq_empty fun w hw => by rw [hword.mp hw]; exact Nat.one_ne_zero
  calc slotList (codeWords lens) 1 = [slotEntry (codeWords lens) 0, slotEntry (codeWords lens) 1] := rfl
    _ = [(i, 1), (0, 0)] := by rw [hzero, hone]

end

/-- Settles O7: the one code is 0, so it writes slot 0 and leaves slot 1 empty (`slotList_of_singleCode`). -/
theorem singleCodeTable : Obligations.SingleCodeTable := by
  unfold Obligations.SingleCodeTable
  intro lens i hi hrest
  have hcoded : ∃ x ∈ lens, x ≠ 0 := ⟨1, List.mem_of_getElem? (getElem?_of_singleCode hi), Nat.one_ne_zero⟩
  have hm := maxLen_of_singleCode hi hrest
  have hmin : minLen lens = 1 := by
    obtain ⟨hmem, hpos, -⟩ := minLen_least hcoded
    exact le_antisymm (le_one_of_singleCode hi hrest _ hmem) hpos
  rw [build_of_coded hcoded, if_pos (isPrefixCode_of_singleCode hi hrest), fillTable, hm, hmin,
    slotList_of_singleCode hi hrest]
  rfl

end Sys2Proof.Machine
end

section
/-! ## Where a fetch finds no instruction (41_huffman_table.md R176; 42_deflate_blocks.md R202; 60_exceptions.md R512) -/

namespace Sys2Proof.Machine

section
variable {s u : State} {p : Slot}

theorem step_of_fetch_underflow (hc : s.ctl = .run p) (h : fetch p s = underflow u) :
    step s = .next (stopShort u) := by
  cases hend : u.ibEnd with
  | true =>
    have hclosed : fetch p s = .needMoreClosed u := by rw [h, underflow, if_pos hend]
    simp only [step, hc, hclosed, finish_eq, settle_needMoreClosed, stopShort, hend, reduceIte]
  | false =>
    have hopen : fetch p s = .needMoreOpen u := by rw [h, underflow, if_neg (hend ▸ Bool.false_ne_true)]
    simp only [step, hc, hopen, finish_eq, settle_needMoreOpen, stopShort, hend, Bool.false_eq_true, reduceIte]

theorem step_of_fetch_fatal {e : FatalError} (hc : s.ctl = .run p) (h : fetch p s = .fatal e u) :
    step s = .next (errorEntry e u) := by
  simp only [step, hc, h, finish_eq, settle_fatal]

theorem inputExhausted_drained (h : s.ibOff ≤ s.ibData.length) : inputExhausted s (drained s) := by
  refine ⟨rfl, ?_⟩
  simp only [drained, pulled_ibOff, avail]
  omega

theorem pending_drained {n : Nat} (hb : BitsOk s.brBuf s.brLen) (hn : n ≤ 16) (h : availBits s < n) :
    pending (drained s) = pending s :=
  pending_pulled _ hb.2 le_rfl (by unfold availBits at h; omega)

/-- A block header of which a bit is missing: BFINAL, or a bit of BTYPE (R202). -/
theorem fetch_bh_short (hw : Memory.wf s) (h : availBits s < 3) :
    ∃ u, inputExhausted s u ∧ fetch .bh s = underflow u := by
  have ⟨hoff, _, hb, _⟩ := hw
  rcases Nat.lt_or_ge (availBits s) 1 with hnone | hsome
  · exact ⟨drained s, inputExhausted_drained hoff, by rw [fetch, brShift_underflow hb (by decide) hnone, bind_underflow]⟩
  · obtain ⟨-, hend⟩ := inputExhausted_drained (wf_drawn (n := 1) hw (by decide) hsome).1
    have htype : availBits (drawn 1 s) < 2 := by rw [availBits_drawn hsome]; omega
    refine ⟨drained (drawn 1 s), ⟨rfl, hend⟩, ?_⟩
    rw [fetch, brShift_ready hb (by decide) hsome, bind_ready,
      brShift_underflow (bitsOk_drawn hb (by decide)) (by decide) htype, bind_underflow]

end

/-- Settles O9: a short fetch has taken every byte (`fetch_bh_short`, `decodeSymbol_underflow`), and `Decode` at an empty
slot has peeked only (`decodeSymbol_unassigned`). -/
theorem stepStopsWhereNoSymbolIsRead : Obligations.StepStopsWhereNoSymbolIsRead := by
  unfold Obligations.StepStopsWhereNoSymbolIsRead
  refine ⟨fun s hc hw h => ?_, fun p s t hc hT ⟨hoff, _, hb, _⟩ hm h => ?_,
    fun p s t hc hT ⟨_, _, hb, _⟩ hm ha hempty => ?_⟩
  · obtain ⟨u, hu, hfetch⟩ := fetch_bh_short hw h
    exact ⟨u, hu, step_of_fetch_underflow hc hfetch⟩
  · have hfetch : fetch p s = underflow (drained s) := by
      rw [fetch_of_tableAt hT, decodeSymbol_underflow hb hm h, bind_underflow]
    exact ⟨drained s, inputExhausted_drained hoff, pending_drained hb hm h, step_of_fetch_underflow hc hfetch⟩
  · have hfetch : fetch p s = .fatal (.invalidDeflateBlock .unassignedCode) (peeked t.m s) := by
      rw [fetch_of_tableAt hT, decodeSymbol_unassigned hb hm ha hempty, bind_fatal]
    exact ⟨peeked t.m s, rfl, pending_peeked hb hm ha, availBits_peeked ha, step_of_fetch_fatal hc hfetch⟩

end Sys2Proof.Machine
end

section
/-! ## The blocks family (42_deflate_blocks.md): block headers, the stored body, the dynamic header, the end of a block -/

namespace Sys2Proof.Machine

/-! ### Fetch and execute -/

section
variable {p : Slot} {s u : State}

/-- A step whose fetch reads an instruction executes it in the state after the fetch. -/
theorem step_of_fetch_ready {i : Instr} (hc : s.ctl = .run p) (h : fetch p s = .ready (.ok i) u) :
    step s = exec i u := by
  simp only [step, hc, h]

/-- A place with neither a table nor a block header reads nothing by itself: FLG and the place select the field. -/
theorem fetch_of_no_table (hbh : p ≠ .bh) (hT : tableAt p s = none) :
    fetch p s = .ready (decode p s.loc.flg.toNat) s := by
  cases p with
  | bh => exact absurd rfl hbh
  | cl | ll | d => cases hT
  | gzId | gzCm | gzFlg | gzFtext | gzFlgRsv | gzFixed | gzFextra | gzFname | gzFcomment | gzFhcrc => rfl
  | stBody | dhCounts | dhCll | trailer => rfl

end

/-- Settles O8: what the fetch reads at each kind of place (`fetch_of_no_table`, `fetch_bh_ready`, `decodeSymbol_of_slot`) is
what the step executes; the stopped core without a transaction stays. -/
theorem stepRunsTheDecodedInstruction : Obligations.StepRunsTheDecodedInstruction := by
  unfold Obligations.StepRunsTheDecodedInstruction
  refine ⟨fun p s i hc hbh hT hi => ?_, fun s i hc hb ha hi => ?_, fun p s t i hc hT hb hm ha h0 hi => ?_,
    fun s hc hh => ?_⟩
  · exact step_of_fetch_ready hc (by rw [fetch_of_no_table hbh hT, hi])
  · exact step_of_fetch_ready hc (by rw [fetch_bh_ready hb ha, hi])
  · refine step_of_fetch_ready hc ?_
    rw [fetch_of_tableAt hT, decodeSymbol_of_slot hb hm ha rfl h0 rfl, bind_ready, hi]
  · rw [step_idle hc, hostStep, hh]

/-! ### The block header (R200 to R207) -/

/-- Settles O37: each arm notes BFINAL and BTYPE and goes to its body, or enters the error. -/
theorem blockTypes : Obligations.BlockTypes := by
  unfold Obligations.BlockTypes
  intro f s
  exact ⟨rfl, rfl, rfl, rfl⟩

/-! ### Reads that run short (40_input_bitreader.md R144) -/

/-- The read finds too little input, with every received byte taken and nothing else of `s` changed. -/
def Rd.Short {α : Type} (s : State) (r : Rd α) : Prop := ∃ u, inputExhausted s u ∧ r = underflow u

section
variable {α β : Type} {s t u : State}

/-- Taking every byte after the cursor moved is taking every byte. -/
theorem inputExhausted_of_cursorMoved (hst : cursorMoved s t) (htu : inputExhausted t u) : inputExhausted s u := by
  obtain ⟨hu, hend⟩ := htu
  rw [hst] at hu hend
  exact ⟨hu, hend⟩

theorem Rd.Short.of_cursorMoved {r : Rd α} (h : r.Short t) (hst : cursorMoved s t) : r.Short s := by
  obtain ⟨u, hu, hr⟩ := h
  exact ⟨u, inputExhausted_of_cursorMoved hst hu, hr⟩

theorem Rd.Short.bind {r : Rd α} (h : r.Short s) (f : α → State → Rd β) : (r.bind f).Short s := by
  obtain ⟨u, hu, rfl⟩ := h
  exact ⟨u, hu, bind_underflow u f⟩

/-- An instruction whose reads run short ends the run so. -/
theorem Rd.Short.finishes {r : Rd Unit} (h : r.Short s) : ∃ u, inputExhausted s u ∧ finish r = .next (stopShort u) := by
  obtain ⟨u, hu, rfl⟩ := h
  exact ⟨u, hu, by rw [finish_eq, settle_underflow]⟩

/-- A field of `n` bits and what follows it run short together when fewer than `n + k` bits are pending and what follows
needs `k`. -/
theorem short_bind_brShift {n k : Nat} {f : Nat → State → Rd β} (hw : Memory.wf s) (hn : n ≤ 16)
    (h : availBits s < n + k)
    (hf : Memory.wf (drawn n s) → availBits (drawn n s) < k → (f (pending s % 2 ^ n) (drawn n s)).Short (drawn n s)) :
    ((brShift n s).bind f).Short s := by
  have ⟨hoff, _, hb, _⟩ := hw
  rcases Nat.lt_or_ge (availBits s) n with hshort | hready
  · exact ⟨drained s, inputExhausted_drained hoff, by rw [brShift_underflow hb hn hshort, bind_underflow]⟩
  · have hrest : availBits (drawn n s) < k := by rw [availBits_drawn hready]; omega
    rw [brShift_ready hb hn hready, bind_ready]
    exact (hf (wf_drawn hw hn hready) hrest).of_cursorMoved (drawn_eq n s)

end

/-! ### Two fields drawn one after the other (R140) -/

section
variable {m n : Nat} {s : State}

/-- What is left for the second field. -/
theorem le_availBits_drawn (h : m + n ≤ availBits s) : n ≤ availBits (drawn m s) := by
  rw [availBits_drawn (by omega)]; omega

theorem availBits_drawn_drawn (h : m + n ≤ availBits s) :
    availBits (drawn n (drawn m s)) = availBits s - (m + n) := by
  rw [availBits_drawn (le_availBits_drawn h), availBits_drawn (by omega), Nat.sub_sub]

theorem pending_drawn_drawn (hb : BitsOk s.brBuf s.brLen) (hm : m ≤ 16) (hn : n ≤ 16) (h : m + n ≤ availBits s) :
    pending (drawn n (drawn m s)) = pending s / 2 ^ (m + n) := by
  rw [pending_drawn (bitsOk_drawn hb hm) hn (le_availBits_drawn h), pending_drawn hb hm (by omega),
    Nat.div_div_eq_div_mul, Nat.pow_add]

end

/-! ### The stored body (R204) -/

/-- NLEN is the complement of LEN, as words and as numbers. -/
theorem ofNat_eq_not_iff (len nlen : Nat) :
    BitVec.ofNat 16 len = ~~~ BitVec.ofNat 16 nlen ↔ len % 2 ^ 16 = 0xFFFF - nlen % 2 ^ 16 := by
  rw [← BitVec.toNat_inj, BitVec.toNat_not, BitVec.toNat_ofNat, BitVec.toNat_ofNat]

section
variable {s : State}

/-- The stored body after its padding and its two fields. -/
theorem execStBody_of_fields (hb : BitsOk s.brBuf s.brLen) (h : 32 ≤ availBits (brAlign s)) :
    exec .stBody s = finish
      (if pending (brAlign s) % 2 ^ 16 ≠ 0xFFFF - pending (brAlign s) / 2 ^ 16 % 2 ^ 16 then
        .fatal (.invalidDeflateBlock .lenNlen) (drawn 16 (drawn 16 (brAlign s)))
      else (copyStored (pending (brAlign s) % 2 ^ 16) (drawn 16 (drawn 16 (brAlign s)))).bind fun _ u =>
        .ready () (commitBlock u)) := by
  have ha := bitsOk_brAlign hb
  rw [exec, execStBody, brShift_ready ha le_rfl (by omega), bind_ready,
    brShift_ready (bitsOk_drawn ha le_rfl) le_rfl (le_availBits_drawn h), bind_ready, pending_drawn ha le_rfl (by omega)]

/-- A read that takes every byte and writes none extends the window by nothing. -/
theorem eq_extended_of_inputExhausted {u : State} (h : inputExhausted s u) :
    u = { s with ibOff := s.ibData.length, brBuf := u.brBuf, brLen := u.brLen, win := s.win ++ [] } := by
  obtain ⟨hmoved, hend⟩ := h
  rw [List.append_nil, ← hend]
  exact hmoved

/-- A stored run that is not all there: the bytes that are there were appended to the window (R144). -/
theorem copyStored_underflow (n : Nat) (hw : Memory.wf s) (h : availBits s < 8 * n) :
    ∃ u extra, u = { s with ibOff := s.ibData.length, brBuf := u.brBuf, brLen := u.brLen, win := s.win ++ extra } ∧
      copyStored n s = underflow u := by
  induction n generalizing s with
  | zero => omega
  | succ n ih =>
    have ⟨hoff, _, hb, _⟩ := hw
    rcases Nat.lt_or_ge (availBits s) 8 with hshort | hready
    · exact ⟨drained s, [], eq_extended_of_inputExhausted (inputExhausted_drained hoff),
        by rw [copyStored, brShift_underflow hb (by decide) hshort, bind_underflow]⟩
    · set b : Byte := BitVec.ofNat 8 (pending s % 2 ^ 8)
      have hrest : availBits (winWrite b (drawn 8 s)) < 8 * n := by
        have : availBits (drawn 8 s) < 8 * n := by rw [availBits_drawn hready]; omega
        exact this
      obtain ⟨u, extra, hu, hcopy⟩ := ih (wf_winWrite (wf_drawn hw (by decide) hready) b) hrest
      refine ⟨u, [b] ++ extra, ?_, by rw [copyStored, brShift_ready hb (by decide) hready, bind_ready, hcopy]⟩
      rw [← List.append_assoc]
      exact hu

/-- A stored body without all of LEN and NLEN reads no data. -/
theorem execStBody_short (hw : Memory.wf s) (h : availBits (brAlign s) < 32) :
    ∃ u, inputExhausted s u ∧ exec .stBody s = .next (stopShort u) :=
  Rd.Short.finishes <| Rd.Short.of_cursorMoved (t := brAlign s)
    (short_bind_brShift (k := 16) (wf_brAlign hw) le_rfl h fun hw₁ h₁ =>
      short_bind_brShift (k := 0) hw₁ le_rfl h₁ fun _ h₂ => absurd h₂ (Nat.not_lt_zero _)) rfl

end

/-- Settles O38: the two fields are read first (`execStBody_of_fields`); a stored run that is all there is the stream's bytes
(`copyStored_ready`). -/
theorem storedBody : Obligations.StoredBody := by
  unfold Obligations.StoredBody
  intro s hb h32
  rw [execStBody_of_fields hb h32]
  refine ⟨fun hne => ?_, fun heq hdata => ?_⟩
  · rw [Ne, ofNat_eq_not_iff, Nat.mod_mod, Nat.mod_mod] at hne
    rw [if_pos hne, finish_eq, settle_fatal]
  · rw [ofNat_eq_not_iff, Nat.mod_mod, Nat.mod_mod] at heq
    have ha := bitsOk_brAlign hb
    rw [if_neg (not_not_intro heq), copyStored_ready _ (bitsOk_drawn (bitsOk_drawn ha le_rfl) le_rfl) hdata, bind_ready,
      streamBytes, pending_drawn_drawn ha le_rfl le_rfl h32]
    rfl

/-- Settles O39: LEN or NLEN is missing (`execStBody_short`), or they are there and the data is not
(`copyStored_underflow`). -/
theorem storedBodyRunsShort : Obligations.StoredBodyRunsShort := by
  unfold Obligations.StoredBodyRunsShort
  intro s hw h
  rcases Nat.lt_or_ge (availBits (brAlign s)) 32 with hfields | h32
  · obtain ⟨u, hu, hexec⟩ := execStBody_short hw hfields
    exact ⟨u, [], eq_extended_of_inputExhausted hu, hexec⟩
  · obtain ⟨heq, hdata⟩ := h.resolve_left (Nat.not_lt.mpr h32)
    rw [ofNat_eq_not_iff] at heq
    have hwa := wf_brAlign hw
    have hwu : Memory.wf (drawn 16 (drawn 16 (brAlign s))) :=
      wf_drawn (wf_drawn hwa le_rfl (by omega)) le_rfl (le_availBits_drawn h32)
    obtain ⟨u, extra, hu, hcopy⟩ := copyStored_underflow (pending (brAlign s) % 2 ^ 16) hwu
      (by rw [availBits_drawn_drawn h32]; omega)
    have ⟨_, _, hb, _⟩ := hw
    refine ⟨u, extra, hu, ?_⟩
    rw [execStBody_of_fields hb h32, if_neg (not_not_intro heq), hcopy, bind_underflow, finish_eq, settle_underflow]

/-! ### The counts of a dynamic header (R206) -/

/-- Settles O40: three fields one after the other; a read of 5, 5 and 4 bits with fewer than 14 is short
(`short_bind_brShift`). -/
theorem dynamicHeaderCounts : Obligations.DynamicHeaderCounts := by
  unfold Obligations.DynamicHeaderCounts
  refine ⟨fun s hb h14 => ?_, fun s hw h => ?_⟩
  · have hb1 : BitsOk (drawn 5 s).brBuf (drawn 5 s).brLen := bitsOk_drawn hb (by decide)
    have hb2 : BitsOk (drawn 5 (drawn 5 s)).brBuf (drawn 5 (drawn 5 s)).brLen := bitsOk_drawn hb1 (by decide)
    have h9 : 5 ≤ availBits (drawn 5 s) := le_availBits_drawn (by omega)
    have h4 : 4 ≤ availBits (drawn 5 (drawn 5 s)) := by rw [availBits_drawn_drawn (by omega)]; omega
    rw [exec, execDhCounts, brShift_ready hb (by decide) (by omega), bind_ready, brShift_ready hb1 (by decide) h9,
      bind_ready, brShift_ready hb2 (by decide) h4, bind_ready, pending_drawn hb (by decide) (by omega),
      pending_drawn_drawn hb (by decide) (by decide) (by omega)]
    rfl
  · exact Rd.Short.finishes <| short_bind_brShift (k := 9) hw (by decide) h fun hw₁ h₁ =>
      short_bind_brShift (k := 4) hw₁ (by decide) h₁ fun hw₂ h₂ =>
        short_bind_brShift (k := 0) hw₂ (by decide) h₂ fun _ h₃ => absurd h₃ (Nat.not_lt_zero _)

/-! ### The code-length code (R208) -/

section
variable {s : State}

theorem buildTable_of_ok {lens : List Nat} {t : Table} (h : build lens = .ok t) (s : State) :
    buildTable lens s = .ready t s := by
  rw [buildTable, h]

theorem buildTable_of_error {lens : List Nat} {e : DeflateDetail} (h : build lens = .error e) (s : State) :
    buildTable lens s = .fatal (.invalidDeflateBlock e) s := by
  rw [buildTable, h]

theorem readCll_short (ps cll : List Nat) (hw : Memory.wf s) (h : availBits s < 3 * ps.length) :
    (readCll ps cll s).Short s := by
  induction ps generalizing s cll with
  | nil => exact absurd h (Nat.not_lt_zero _)
  | cons p ps ih =>
    rw [List.length_cons] at h
    exact short_bind_brShift (k := 3 * ps.length) hw (by decide) (by omega) fun hw₁ h₁ => ih _ hw₁ h₁

/-- The loop of R208: the k-th field is written at the k-th of the slots `ps`, and no other slot is. -/
theorem readCll_ready (ps cll : List Nat) (hps : ps.Nodup) (hb : BitsOk s.brBuf s.brLen)
    (h : 3 * ps.length ≤ availBits s) :
    ∃ ls, readCll ps cll s = .ready ls (drawnFields 3 ps.length s) ∧ ls.length = cll.length ∧
      ∀ j < cll.length, ls.getD j 0 = if j ∈ ps then pending s / 8 ^ ps.idxOf j % 8 else cll.getD j 0 := by
  induction ps generalizing s cll with
  | nil => exact ⟨cll, rfl, rfl, fun j _ => by simp⟩
  | cons p ps ih =>
    obtain ⟨hp, hps⟩ := List.nodup_cons.mp hps
    rw [List.length_cons] at h
    obtain ⟨ls, hread, hlen, hls⟩ := ih (cll.set p (pending s % 2 ^ 3)) hps (bitsOk_drawn (n := 3) hb (by decide))
      (by rw [availBits_drawn (n := 3) (by omega)]; omega)
    rw [List.length_set] at hlen hls
    refine ⟨ls, by rw [readCll, brShift_ready hb (by decide) (by omega), bind_ready, hread]; rfl, hlen, fun j hj => ?_⟩
    have hpending : pending (drawn 3 s) = pending s / 8 := pending_drawn hb (by decide) (by omega)
    rw [hls j hj, hpending]
    rcases eq_or_ne p j with rfl | hne
    · rw [if_neg hp, if_pos List.mem_cons_self, List.idxOf_cons_self, List.getD_eq_getElem _ _ (by simpa using hj),
        List.getElem_set_self]
      omega
    · have hset : (cll.set p (pending s % 2 ^ 3)).getD j 0 = cll.getD j 0 := by
        simp only [List.getD_eq_getElem?_getD, List.getElem?_set_ne hne]
      rw [hset, List.idxOf_cons_ne _ hne, Nat.pow_succ', ← Nat.div_div_eq_div_mul]
      simp only [List.mem_cons, hne.symm, false_or]

theorem getElem_cllVector (n v j : Nat) (hj : j < (cllVector n v).length) :
    (cllVector n v)[j] = if perm.idxOf j < n then v / 8 ^ perm.idxOf j % 8 else 0 := by
  simp [cllVector]

/-- The fields of R208 in PERM order are the vector `cllVector`. -/
theorem readCll_perm {n : Nat} (hn : n ≤ 19) (hb : BitsOk s.brBuf s.brLen) (h : 3 * n ≤ availBits s) :
    readCll (perm.take n) (List.replicate 19 0) s = .ready (cllVector n (pending s)) (drawnFields 3 n s) := by
  have hlen : (perm.take n).length = n := by rw [List.length_take]; exact min_eq_left hn
  have hprefix := perm.take_prefix n
  obtain ⟨ls, hread, hls, hslots⟩ := readCll_ready (perm.take n) (List.replicate 19 0)
    (hprefix.sublist.nodup (by decide)) hb (by rwa [hlen])
  rw [hlen] at hread
  rw [List.length_replicate] at hls hslots
  have hvector : ls = cllVector n (pending s) := by
    refine List.ext_getElem (by rw [hls, cllVector]; simp) fun j hj _ => ?_
    have hslot := hslots j (hls ▸ hj)
    have hmem : j ∈ perm.take n ↔ perm.idxOf j < n := by rw [hprefix.mem_iff_idxOf_lt_length, hlen]
    rw [List.getD_eq_getElem _ _ hj, List.getD_replicate _ (hls ▸ hj)] at hslot
    rw [hslot, getElem_cllVector]
    by_cases hnamed : j ∈ perm.take n
    · rw [if_pos hnamed, if_pos (hmem.mp hnamed), hprefix.idxOf_eq_of_mem hnamed]
    · rw [if_neg hnamed, if_neg fun hlt => hnamed (hmem.mpr hlt)]
  rw [hread, hvector]

end

/-- Settles O41: the lengths read are `cllVector` (`readCll_perm`), and Build answers for it. -/
theorem codeLengthCode : Obligations.CodeLengthCode := by
  unfold Obligations.CodeLengthCode
  refine ⟨rfl, fun s hw hn h => ?_, fun s hb hn h => ?_⟩
  · have hlen : (perm.take s.loc.hclen).length = s.loc.hclen := by rw [List.length_take]; exact min_eq_left hn
    exact ((readCll_short _ _ hw (by rwa [hlen])).bind _).finishes
  · have hread := readCll_perm hn hb h
    have hloc : (drawnFields 3 s.loc.hclen s).loc = s.loc := by rw [drawnFields_eq]
    refine ⟨fun t ht => ?_, fun e he => ?_⟩
    · rw [exec, execDhCll, hread, bind_ready, buildTable_of_ok ht, bind_ready, finish_eq, settle_ready, hloc]
    · rw [exec, execDhCll, hread, bind_ready, buildTable_of_error he, bind_fatal, finish_eq, settle_fatal]

/-! ### The code lengths (R209 to R215) -/

/-- Settles O42: the arm of CL_LEN appends its operand. -/
theorem codeLengthSymbol : Obligations.CodeLengthSymbol := by
  unfold Obligations.CodeLengthSymbol
  intro len s _
  rfl

/-- The length that a repeat symbol appends (R211 to R213). -/
def repeatedLength (i : Instr) (s : State) : Nat := if i = .clRep then s.loc.lens.getLastD 0 else 0

section
variable {bits : Nat} {s : State}

/-- The three repeat symbols are one loop over their base and their extra bits. -/
theorem exec_repeat {i : Instr} {base : Nat}
    (hi : (i = .clRep ∧ base = 3 ∧ bits = 2 ∧ s.loc.lens ≠ []) ∨ (i = .clZero3 ∧ base = 3 ∧ bits = 3) ∨
      (i = .clZero11 ∧ base = 11 ∧ bits = 7)) :
    bits ≤ 16 ∧ exec i s = finish ((brShift bits s).bind fun e t => appendRun (base + e) (repeatedLength i t) t) := by
  obtain ⟨rfl, rfl, rfl, hlens⟩ | ⟨rfl, rfl, rfl⟩ | ⟨rfl, rfl, rfl⟩ := hi
  · refine ⟨by decide, ?_⟩
    rw [exec, execClRep, if_neg hlens]
    rfl
  · exact ⟨by decide, rfl⟩
  · exact ⟨by decide, rfl⟩

theorem appendRun_overrun {r : Nat} (v : Nat) (h : codeLengthCount s < s.loc.lens.length + r) :
    appendRun r v s = .fatal (.invalidDeflateBlock .clOverrun) s := by
  rw [appendRun, if_pos h]

theorem appendRun_fits {r : Nat} (v : Nat) (h : s.loc.lens.length + r ≤ codeLengthCount s) :
    appendRun r v s = nextCodeLength (appendLens (List.replicate r v) s) := by
  rw [appendRun, if_neg (Nat.not_lt.mpr h)]

end

/-- Settles O43: the extra bits come first (`exec_repeat`), then the check of R214 on the count they give. -/
theorem repeatSymbols : Obligations.RepeatSymbols := by
  unfold Obligations.RepeatSymbols
  refine ⟨fun s h => ?_, fun i base bits s hi hb => ?_⟩
  · rw [exec, execClRep, if_pos h, finish_eq, settle_fatal]
  · obtain ⟨hbits, hexec⟩ := exec_repeat hi
    rw [hexec]
    refine ⟨fun hshort => ?_, fun hready hover => ?_, fun hready hfits => ?_⟩
    · rw [brShift_underflow hb hbits hshort, bind_underflow, finish_eq, settle_underflow]
    · rw [brShift_ready hb hbits hready, bind_ready, appendRun_overrun (s := drawn bits s) _ hover, finish_eq, settle_fatal]
    · rw [brShift_ready hb hbits hready, bind_ready, appendRun_fits (s := drawn bits s) _ hfits, finish_eq]
      rfl

section
variable {s : State}

theorem nextCodeLength_more (h : s.loc.lens.length < codeLengthCount s) : nextCodeLength s = .ready () (goto .cl s) := by
  rw [nextCodeLength, if_pos h]

theorem nextCodeLength_last (h : codeLengthCount s ≤ s.loc.lens.length) : nextCodeLength s = buildBlockTables s := by
  rw [nextCodeLength, if_neg (Nat.not_lt.mpr h)]

end

/-- Settles O44: the head of the loop (`nextCodeLength_more`, `nextCodeLength_last`), then the two builds in their order. -/
theorem codeLengthsEnd : Obligations.CodeLengthsEnd := by
  unfold Obligations.CodeLengthsEnd
  intro s
  refine ⟨fun h => by rw [nextCodeLength_more h, settle_ready], fun h => ?_⟩
  rw [nextCodeLength_last h, buildBlockTables]
  refine ⟨fun e he => ?_, fun lt e hlt he => ?_, fun lt dt hlt hdt => ?_⟩
  · rw [buildTable_of_error he, bind_fatal, settle_fatal]
  · rw [buildTable_of_ok hlt, bind_ready, buildTable_of_error he, bind_fatal, settle_fatal]
  · rw [buildTable_of_ok hlt, bind_ready, buildTable_of_ok hdt, bind_ready, settle_ready]

/-! ### The end of a block (R201) -/

/-- TOTAL_OUT counts modulo `2^32` (10_state.md R31). -/
theorem sizeUpdate_eq (t : Word) (n : Nat) : sizeUpdate t n = BitVec.ofNat 32 ((t.toNat + n) % 2 ^ 32) := by
  apply BitVec.eq_of_toNat_eq
  rw [sizeUpdate, BitVec.toNat_add, BitVec.toNat_ofNat, BitVec.toNat_ofNat, Nat.mod_mod, Nat.add_mod_mod]

theorem length_newBytes (s : State) : (newBytes s).length = s.win.length - s.snapWlen := by
  rw [newBytes, List.length_drop]

/-- The full state after a block's commit, but for the unit-local state. -/
theorem commitBlock_eq (s : State) : commitBlock s = { s with
    out := s.out ++ newBytes s
    crcAcc := crcUpdate s.crcAcc (newBytes s)
    totalOut := sizeUpdate s.totalOut (newBytes s).length
    final := s.final || s.loc.bfinal
    phase := if s.loc.bfinal then .trailer else .block
    ctl := firstSlot (if s.loc.bfinal then .trailer else .block)
    snapOff := s.ibOff, snapBuf := s.brBuf, snapLen := s.brLen, snapWlen := s.win.length
    loc := (commitBlock s).loc } := rfl

/-- Settles O46: `commitBlock_eq`, for the two values of BFINAL. -/
theorem blockCommit : Obligations.BlockCommit := by
  unfold Obligations.BlockCommit
  intro s
  refine ⟨rfl, ?_⟩
  rw [← length_newBytes, ← sizeUpdate_eq]
  conv_lhs => rw [commitBlock_eq]
  cases s.loc.bfinal with
  | false => rw [Bool.or_false]; rfl
  | true => rw [Bool.or_true]; rfl

/-- How an instruction that ends a block may leave the state: the unit suspended or failed, or the block committed. -/
inductive BlockEnds (p : Slot) (s : State) : State → Prop where
  | suspended {u : State} : Within p s u → BlockEnds p s (suspend u)
  | failed {u : State} (e : FatalError) : Within p s u → BlockEnds p s (errorEntry e u)
  | committed {u : State} : Within p s u → BlockEnds p s (commitBlock u)

section
variable {p : Slot} {s t : State}

theorem Rd.Sat.blockEnds {r : Rd Unit} (h : r.Sat (Within p s) fun _ t => BlockEnds p s t) :
    BlockEnds p s (settle r) := by
  cases r with
  | ready _ t => exact h
  | needMoreOpen t => exact .suspended h
  | needMoreClosed t => exact .failed .truncated h
  | fatal e t => exact .failed e h

theorem execStBody_blockEnds (h : exec .stBody s = .next t) : BlockEnds .stBody s t := by
  cases h
  refine Rd.Sat.blockEnds <| ((Within.refl .stBody s).brAlign.brShift le_rfl).bind fun len _ h₁ =>
    (h₁.1.brShift le_rfl).bind fun _ _ h₂ => ?_
  split
  · exact h₂.1
  · exact (h₂.1.copyStored rfl len).bind fun _ _ h₃ => .committed h₃

theorem execEob_blockEnds (h : exec .eob s = .next t) : BlockEnds .ll s t := by
  cases h
  exact .committed (.refl .ll s)

theorem Within.errorRegistersKept {u : State} (h : Within p s u) : u.errCode = s.errCode ∧ u.errDetail = s.errDetail :=
  ⟨h.kept State.errCode fun _ => rfl, h.kept State.errDetail fun _ => rfl⟩

/-- What the end of a block leaves alone, whatever its outcome, but for the trailer's registers (R201, R204). -/
theorem BlockEnds.frame (h : BlockEnds p s t) :
    hostFieldsKept s t ∧ (t.phase ≠ .error → t.errCode = s.errCode ∧ t.errDetail = s.errDetail) ∧
      (t.ctl = .idle → committedKept s t ∧ snapshotKept s t) ∧
      (t.ctl ≠ .idle → s.win <+: t.win ∧ t.out = s.out ++ t.win.drop s.snapWlen ∧ t.snapWlen = t.win.length) := by
  cases h with
  | suspended hu =>
    exact ⟨hu.hostFieldsKept, fun _ => hu.errorRegistersKept, fun _ => ⟨hu.committedKept, hu.snapshotKept⟩,
      fun hrun => absurd rfl hrun⟩
  | failed e hu =>
    exact ⟨hu.hostFieldsKept, fun hphase => absurd rfl hphase, fun _ => ⟨hu.committedKept, hu.snapshotKept⟩,
      fun hrun => absurd rfl hrun⟩
  | @committed u hu =>
    refine ⟨hu.hostFieldsKept, fun _ => hu.errorRegistersKept, fun hidle => ?_,
      fun _ => ⟨hu.extends_win, hu.commitBlock_out, rfl⟩⟩
    rcases commitBlock_begins u with hc | hc <;> cases hidle.symm.trans hc

end

/-- Settles O55: `BlockEnds.frame` for EOB and the stored body; the trailer's registers are the trailer's alone
(`exec_trailerKept`). -/
theorem blockEndFrame : Obligations.BlockEndFrame := by
  unfold Obligations.BlockEndFrame
  intro i s t hi h
  have hends : ∃ p, BlockEnds p s t := by
    rcases hi with rfl | rfl
    · exact ⟨.ll, execEob_blockEnds h⟩
    · exact ⟨.stBody, execStBody_blockEnds h⟩
  have htrailer : i ≠ .gzTrailer := by rcases hi with rfl | rfl <;> exact Instr.noConfusion
  obtain ⟨p, hends⟩ := hends
  obtain ⟨hhost, herr, hidle, hrun⟩ := hends.frame
  refine ⟨exec_trailerKept htrailer h, hhost, herr, hidle, fun hgoes => ?_⟩
  obtain ⟨hwin, hout, hsnap⟩ := hrun hgoes
  exact ⟨hwin, fun heob => by subst heob; cases h; rfl, hout, hsnap⟩

end Sys2Proof.Machine
end

section
/-! ## The symbols of a Huffman block body (43_deflate_symbols.md): literals, lengths, distances and the illegal symbols -/

namespace Sys2Proof.Machine

/-! ### The symbols by number -/

/-- Two lists computed from a list and from its indices agree entry by entry. -/
theorem apply_eq_of_map_eq_map_range {α β : Type} {l : List α} {f : α → β} {g : Nat → β} {k : Nat} {a : α}
    (h : l.map f = (List.range l.length).map g) (hk : l[k]? = some a) : f a = g k := by
  have hlt : k < l.length := (List.getElem?_eq_some_iff.mp hk).1
  have hentry : (l.map f)[k]? = ((List.range l.length).map g)[k]? := by rw [h]
  rw [List.getElem?_map, hk, List.getElem?_map, List.getElem?_range hlt] at hentry
  exact Option.some.inj hentry

/-- LEN257 to LEN285 are one meaning over the index of R302. -/
theorem map_exec_lenInstrs (s : State) :
    lenInstrs.map (exec · s) = (List.range lenInstrs.length).map fun k => finish (lengthSymbol k s) := rfl

/-- DIST0 to DIST29 are one meaning over the symbol's number. -/
theorem map_exec_distInstrs (s : State) :
    distInstrs.map (exec · s) = (List.range distInstrs.length).map fun d => finish (distanceSymbol d s) := rfl

section
variable {k d : Nat} {i : Instr}

theorem exec_of_lenInstrs (h : lenInstrs[k]? = some i) (s : State) : k < 29 ∧ exec i s = finish (lengthSymbol k s) :=
  ⟨(List.getElem?_eq_some_iff.mp h).1, apply_eq_of_map_eq_map_range (map_exec_lenInstrs s) h⟩

theorem exec_of_distInstrs (h : distInstrs[d]? = some i) (s : State) :
    d < 30 ∧ exec i s = finish (distanceSymbol d s) :=
  ⟨(List.getElem?_eq_some_iff.mp h).1, apply_eq_of_map_eq_map_range (map_exec_distInstrs s) h⟩

end

/-! ### Literals (R300) -/

/-- The byte of a literal is the last one that OUT gets when the block then commits (R201, R300). -/
theorem out_commitBlock_winWrite {s : State} (b : Byte) (h : s.snapWlen ≤ s.win.length) :
    (commitBlock (goto .ll (winWrite b s))).out = s.out ++ s.win.drop s.snapWlen ++ [b] :=
  calc (commitBlock (goto .ll (winWrite b s))).out
    _ = s.out ++ (s.win ++ [b]).drop s.snapWlen := rfl
    _ = s.out ++ s.win.drop s.snapWlen ++ [b] := by rw [List.drop_append_of_le_length h, List.append_assoc]

/-- The fixed codes of the literals: 8 bits up to 143, 9 bits above (30_encoding.md R103). -/
theorem streamWord_lit (b : Byte) : streamWord (.lit b) =
    if b.toNat ≤ 143 then (reverseBits (0b00110000 + b.toNat) 8, 8)
    else (reverseBits (0b110010000 + (b.toNat - 144)) 9, 9) := by
  have hbyte : b.toNat ≤ 255 := Nat.le_of_lt_succ b.isLt
  rw [streamWord_of_ll rfl, encode, fixedLitCode, if_pos hbyte]
  split <;> rfl

/-- Settles O45: LIT is one `WinWrite`; the block's commit brings the byte to OUT (`out_commitBlock_winWrite`), and the code
is R103's (`streamWord_lit`). -/
theorem literalIsWritten : Obligations.LiteralIsWritten := by
  unfold Obligations.LiteralIsWritten
  intro b s
  exact ⟨rfl, fun h => ⟨rfl, out_commitBlock_winWrite b h⟩, streamWord_lit b⟩

/-! ### Illegal symbols (R340, R373) -/

/-- Settles O50: both arms enter their error at once. -/
theorem illegalSymbols : Obligations.IllegalSymbols := by
  unfold Obligations.IllegalSymbols
  intro sym s
  exact ⟨rfl, rfl⟩

/-! ### Lengths (R302) -/

/-- No extra bits lead past the longest match, so R302's cap never changes a value. -/
theorem length_le_max {k : Nat} (hk : k < 29) (v : Nat) : lbase.getD k 0 + v % 2 ^ lextra.getD k 0 ≤ Config.pLenMax := by
  have hbound := (length_bounds k hk).2
  have hextra : v % 2 ^ lextra.getD k 0 < 2 ^ lextra.getD k 0 := Nat.mod_lt _ (Nat.two_pow_pos _)
  omega

/-- Settles O47: the 29 symbols are `lengthSymbol` (`exec_of_lenInstrs`), whose value is read whole or runs short; the cap
is `length_le_max`. -/
theorem lengthSymbols : Obligations.LengthSymbols := by
  unfold Obligations.LengthSymbols
  intro k i s hi hb
  obtain ⟨hk, hexec⟩ := exec_of_lenInstrs hi s
  rw [hexec, lengthSymbol]
  refine ⟨fun hready => ?_, length_le_max hk _, fun hshort => ?_⟩
  · rw [lengthValue_ready k hb hready, bind_ready, finish_eq, settle_ready]
    rfl
  · rw [lengthValue_underflow k hb hshort, bind_underflow, finish_eq, settle_underflow, stopShort]

/-! ### Distances and the copy (R303, R304) -/

theorem distance_pos {d : Nat} (hd : d < 30) (e : Nat) : 0 < dbase.getD d 0 + e :=
  Nat.add_pos_left (distance_bounds d hd).1 e

/-- `WinRead` within the window finds a byte of it (20_memory.md R66). -/
theorem getElem?_win_of_winRead {dist : Nat} {s : State} (hpos : 0 < dist) (hle : dist ≤ s.win.length) :
    s.win[s.win.length - dist]? = some (winRead dist s) := by
  have hlt : s.win.length - dist < s.win.length := by omega
  rw [winRead, List.getD_eq_getElem _ _ hlt, List.getElem?_eq_getElem hlt]

/-- Each byte that a copy appends is the one `dist` before it in the window that the copy leaves, one that the copy itself
wrote included (R303). -/
theorem getElem?_copyMatch {n dist j : Nat} {s : State} (hpos : 0 < dist) (hle : dist ≤ s.win.length)
    (hlo : s.win.length ≤ j) (hhi : j < s.win.length + n) :
    (copyMatch n dist s).win[j]? = (copyMatch n dist s).win[j - dist]? := by
  induction n generalizing s with
  | zero => omega
  | succ n ih =>
    rw [copyMatch]
    rcases Nat.eq_or_lt_of_le hlo with rfl | hlater
    · obtain ⟨new, hnew⟩ := win_isPrefix_copyMatch n dist (winWrite (winRead dist s) s)
      have hbefore : s.win.length - dist < s.win.length := by omega
      rw [← hnew, winWrite_win, List.append_assoc, List.getElem?_append_left hbefore, getElem?_win_of_winRead hpos hle,
        List.getElem?_append_right le_rfl, Nat.sub_self]
      rfl
    · have hlen : (winWrite (winRead dist s) s).win.length = s.win.length + 1 := List.length_append
      exact ih (by omega) (by omega) (by omega)

/-- The bytes that a copy appends (R303). -/
theorem exists_copyMatch_win (len : Nat) {dist : Nat} {s : State} (hpos : 0 < dist) (hle : dist ≤ s.win.length) :
    ∃ new : List Byte, new.length = len ∧ copyMatch len dist s = { s with win := s.win ++ new } ∧
      ∀ j < len, (s.win ++ new)[s.win.length + j]? = (s.win ++ new)[s.win.length + j - dist]? := by
  obtain ⟨new, hnew⟩ := win_isPrefix_copyMatch len dist s
  have hlen : (s.win ++ new).length = s.win.length + len := by rw [hnew, length_copyMatch]
  rw [List.length_append] at hlen
  refine ⟨new, Nat.add_left_cancel hlen, by rw [hnew]; exact copyMatch_eq len dist s, fun j hj => ?_⟩
  rw [hnew]
  exact getElem?_copyMatch hpos hle (Nat.le_add_right _ _) (Nat.add_lt_add_left hj _)

/-- Settles O48: the 30 symbols are `distanceSymbol` (`exec_of_distInstrs`), whose value is read whole or runs short; the
copy checks the window first and then writes the bytes of `exists_copyMatch_win`. -/
theorem backReferenceCopies : Obligations.BackReferenceCopies := by
  unfold Obligations.BackReferenceCopies
  intro d i s hi hb dist u
  obtain ⟨hd, hexec⟩ := exec_of_distInstrs hi s
  rw [hexec, distanceSymbol]
  refine ⟨fun hshort => ?_, fun hready hfar => ?_, fun hready hnear => ?_⟩
  · rw [distanceValue_underflow d hb hshort, bind_underflow, finish_eq, settle_underflow, stopShort]
  · rw [distanceValue_ready d hb hready, bind_ready, copyBackRef_tooFar _ (s := u) hfar, bind_fatal, finish_eq, settle_fatal]
  · obtain ⟨new, hlen, hcopy, hbytes⟩ := exists_copyMatch_win s.loc.len (s := u) (distance_pos hd _) hnear
    refine ⟨new, hlen, ?_, hbytes⟩
    rw [distanceValue_ready d hb hready, bind_ready, copyBackRef_ready _ (s := u) hnear, bind_ready, finish_eq, settle_ready,
      drawn_loc, hcopy]
    rfl

end Sys2Proof.Machine
end

section
/-! ## The GZIP framer (44_gzip_framer.md): the fields of the header, and the trailer -/

namespace Sys2Proof.Machine

/-! ### Two bytes read one after the other (R400, R404) -/

section
variable {α : Type} {s : State}

theorem bind_ibTake_ibTake_ready {a b : Byte} {rest : List Byte} (h : unread s = a :: b :: rest)
    (f : Byte → Byte → State → Rd α) :
    ((ibTake s).bind fun x t => (ibTake t).bind fun y u => f x y u) = f a b (taken 2 s) := by
  have hsecond : unread (taken 1 s) = b :: rest := by rw [unread_taken, h]; rfl
  rw [ibTake_cons h, bind_ready, ibTake_cons hsecond, bind_ready, taken_taken]

theorem bind_ibTake_ibTake_underflow (h : avail s < 2) (f : Byte → Byte → State → Rd α) :
    ((ibTake s).bind fun x t => (ibTake t).bind fun y u => f x y u) = underflow (taken (avail s) s) := by
  rcases Nat.eq_zero_or_pos (avail s) with hnone | hsome
  · rw [ibTake_underflow hnone, bind_underflow, hnone, taken_zero]
  · have hone : avail s = 1 := by omega
    have hend : avail (taken 1 s) = 0 := by rw [avail_taken, hone]
    rw [ibTake_ready hsome, bind_ready, ibTake_underflow hend, bind_underflow, hone]

end

/-! ### The fields of the header (R400 to R409) -/

/-- Settles O30: both bytes are read (`bind_ibTake_ibTake_ready`), then compared. -/
theorem signatureField : Obligations.SignatureField := by
  unfold Obligations.SignatureField
  refine ⟨fun s id1 id2 rest h => ?_, fun s h => ?_⟩
  · rw [exec, execGzId, bind_ibTake_ibTake_ready h, finish_eq, apply_ite settle, settle_fatal, settle_ready]
  · rw [exec, execGzId, bind_ibTake_ibTake_underflow h, finish_eq, settle_underflow]

/-- Settles O31: each field is one byte (`ibTake_cons`, `ibTake_underflow`). -/
theorem methodAndFlagFields : Obligations.MethodAndFlagFields := by
  unfold Obligations.MethodAndFlagFields
  refine ⟨fun s cm rest h => ?_, fun s flg rest h => ?_, fun s h => ⟨?_, ?_⟩⟩
  · rw [exec, execGzCm, ibTake_cons h, bind_ready, finish_eq, apply_ite settle, settle_fatal, settle_ready]
  · rw [exec, execGzFlg, ibTake_cons h, bind_ready, finish_eq, settle_ready]
    rfl
  · rw [exec, execGzCm, ibTake_underflow h, bind_underflow, finish_eq, settle_underflow]
  · rw [exec, execGzFlg, ibTake_underflow h, bind_underflow, finish_eq, settle_underflow]

/-- Settles O32: both arms go to the next place and do nothing else. -/
theorem ignoredFlagBits : Obligations.IgnoredFlagBits := by
  unfold Obligations.IgnoredFlagBits
  exact fun s => ⟨rfl, rfl⟩

section
variable {s : State} {n : Nat} {f : Unit → State → Rd Unit}

/-- A field that discards `n` bytes before it goes on, when they are there. -/
theorem finish_ibSkip_ready (h : n ≤ avail s) :
    finish ((ibSkip n s).bind f) = finish (f () (taken n s)) := by
  rw [ibSkip_ready n h, bind_ready]

theorem finish_ibSkip_underflow (h : avail s < n) :
    finish ((ibSkip n s).bind f) = .next (stopShort (taken (avail s) s)) := by
  rw [ibSkip_underflow h, bind_underflow, finish_eq, settle_underflow]

end

/-- Settles O33: GZ_FIXED and GZ_FHCRC skip a fixed number of bytes (`finish_ibSkip_ready`, `finish_ibSkip_underflow`). -/
theorem discardedHeaderBytes : Obligations.DiscardedHeaderBytes := by
  unfold Obligations.DiscardedHeaderBytes
  exact fun s => ⟨fun h => finish_ibSkip_ready h, fun h => finish_ibSkip_underflow h, fun h => finish_ibSkip_ready h,
    fun h => finish_ibSkip_underflow h⟩

/-- Settles O34: the two bytes of XLEN are read (`bind_ibTake_ibTake_ready`), then XLEN bytes are skipped. -/
theorem extraField : Obligations.ExtraField := by
  unfold Obligations.ExtraField
  refine ⟨fun s lo hi rest h => ?_, fun s h => ?_⟩
  · have htotal : avail s = rest.length + 2 := by rw [← length_unread, h]; rfl
    have hrest : avail (taken 2 s) = rest.length := by rw [avail_taken, htotal, Nat.add_sub_cancel]
    rw [exec, execGzFextra, bind_ibTake_ibTake_ready h]
    refine ⟨fun henough => ?_, fun hshort => ?_⟩
    · rw [finish_ibSkip_ready (hrest.symm ▸ henough), taken_taken, finish_eq, settle_ready]
    · rw [finish_ibSkip_underflow (hrest.symm ▸ hshort), taken_taken, hrest, htotal, Nat.add_comm 2]
  · rw [exec, execGzFextra, bind_ibTake_ibTake_underflow h, finish_eq, settle_underflow]

/-- Settles O35: both fields are `ibSkipNul`. -/
theorem nulTerminatedFields : Obligations.NulTerminatedFields := by
  unfold Obligations.NulTerminatedFields
  refine ⟨fun s text rest h h0 => ⟨?_, ?_⟩, fun s h0 => ⟨?_, ?_⟩⟩
  · rw [exec, execGzFname, ibSkipNul_ready h h0, bind_ready, finish_eq, settle_ready]
  · rw [exec, execGzFcomment, ibSkipNul_ready h h0, bind_ready, finish_eq, settle_ready]
  · rw [exec, execGzFname, ibSkipNul_underflow h0, bind_underflow, finish_eq, settle_underflow]
  · rw [exec, execGzFcomment, ibSkipNul_underflow h0, bind_underflow, finish_eq, settle_underflow]

/-! ### The trailer and its check (R420; 45_crc32_validator.md R443 to R446) -/

section
variable {s : State}

/-- A view of the state that reads do not touch is kept. -/
theorem cursorMoved.kept {β : Sort*} {s u : State} (h : cursorMoved s u) (f : State → β)
    (hf : ∀ x off buf len, f { x with ibOff := off, brBuf := buf, brLen := len } = f x) : f u = f s :=
  (congrArg f h).trans (hf s _ _ _)

theorem brWordLe_short (n : Nat) (hw : Memory.wf s) (h : availBits s < 8 * n) : (brWordLe n s).Short s := by
  induction n generalizing s with
  | zero => exact absurd h (Nat.not_lt_zero _)
  | succ n ih =>
    exact short_bind_brShift (k := 8 * n) hw (by decide) (by omega) fun hw₁ h₁ => (ih hw₁ h₁).bind _

theorem wf_drawnFields {w : Nat} (n : Nat) (hw : Memory.wf s) (hw16 : w ≤ 16) (h : w * n ≤ availBits s) :
    Memory.wf (drawnFields w n s) := by
  induction n generalizing s with
  | zero => exact hw
  | succ n ih =>
    have hsplit : w * (n + 1) = w * n + w := Nat.mul_succ w n
    exact ih (wf_drawn hw hw16 (by omega)) (by rw [availBits_drawn (by omega)]; omega)

/-- A trailer of which a byte is missing: in CRC32, or in ISIZE. -/
theorem execGzTrailer_short (hw : Memory.wf s) (h : availBits (brAlign s) < 64) :
    ∃ u, inputExhausted s u ∧ exec .gzTrailer s = .next (stopShort u) := by
  have hwa := wf_brAlign hw
  refine Rd.Short.finishes (Rd.Short.of_cursorMoved (t := brAlign s) ?_ rfl)
  rcases Nat.lt_or_ge (availBits (brAlign s)) 32 with hcrc | hcrc
  · exact (brWordLe_short 4 hwa hcrc).bind _
  · have ⟨_, _, hb, _⟩ := hwa
    have hsize : availBits (drawnFields 8 4 (brAlign s)) < 32 := by rw [availBits_drawnFields 4 hcrc]; omega
    rw [brWordLe_ready 4 hb hcrc, bind_ready]
    exact ((brWordLe_short 4 (wf_drawnFields 4 hwa (by decide) hcrc) hsize).bind _).of_cursorMoved
      (drawnFields_eq 8 4 (brAlign s))

/-- The trailer after its eight bytes: they are stored, then compared. -/
theorem execGzTrailer_of_fields (hb : BitsOk s.brBuf s.brLen) (h : 64 ≤ availBits (brAlign s)) :
    let c := BitVec.ofNat 32 (pending (brAlign s) % 2 ^ 32)
    let z := BitVec.ofNat 32 (pending (brAlign s) / 2 ^ 32 % 2 ^ 32)
    exec .gzTrailer s = finish ((verify c z { drawnFields 8 8 (brAlign s) with trlCrc := c, trlIsize := z }).bind
      fun _ u => .ready () (commitTrailer u)) := by
  have ha := bitsOk_brAlign hb
  rw [exec, execGzTrailer, brWordLe_ready 4 ha (by omega), bind_ready,
    brWordLe_ready 4 (bitsOk_drawnFields (by decide) 4 ha) (by rw [availBits_drawnFields 4 (by omega)]; omega), bind_ready,
    pending_drawnFields (by decide) 4 ha (by omega)]
  rfl

end

section
variable {c z : Word} {s : State}

theorem verify_off (h : s.cfgVerify = .off) : verify c z s = .ready () s := by rw [verify, h]

theorem verify_warn (h : s.cfgVerify = .warn) : verify c z s = .ready () { s with
    warnCrc := if c ≠ s.crcAcc then true else s.warnCrc
    warnSize := if z ≠ s.totalOut then true else s.warnSize } := by
  have sticky (w : Bool) (x y : Word) : (w || x != y) = if x ≠ y then true else w := by
    by_cases hxy : x = y <;> simp [hxy]
  rw [verify, h]
  simp only [sticky]

theorem verify_fatal (h : s.cfgVerify = .fatal) : verify c z s =
    if c ≠ s.crcAcc then .fatal .badCrc s else if z ≠ s.totalOut then .fatal .badSize s else .ready () s := by
  rw [verify, h]

end

/-- Settles O51: the eight bytes are there and are stored and compared (`execGzTrailer_of_fields`), or the trailer is short
(`execGzTrailer_short`). -/
theorem trailerUnit : Obligations.TrailerUnit := by
  unfold Obligations.TrailerUnit
  intro s hw a c z u
  have ⟨_, _, hb, _⟩ := hw
  have hmoved : cursorMoved a (drawnFields 8 8 a) := drawnFields_eq 8 8 a
  have hcfg : u.cfgVerify = s.cfgVerify := hmoved.kept State.cfgVerify fun _ _ _ _ => rfl
  have hcrc : u.crcAcc = s.crcAcc := hmoved.kept State.crcAcc fun _ _ _ _ => rfl
  have hsize : u.totalOut = s.totalOut := hmoved.kept State.totalOut fun _ _ _ _ => rfl
  have hwarnCrc : u.warnCrc = s.warnCrc := hmoved.kept State.warnCrc fun _ _ _ _ => rfl
  have hwarnSize : u.warnSize = s.warnSize := hmoved.kept State.warnSize fun _ _ _ _ => rfl
  refine ⟨Locals.initial, fun h64 => ?_, execGzTrailer_short hw⟩
  have hexec : exec .gzTrailer s = finish ((verify c z u).bind fun _ v => .ready () (commitTrailer v)) :=
    execGzTrailer_of_fields hb h64
  rw [hexec, ← hcfg, ← hcrc, ← hsize, ← hwarnCrc, ← hwarnSize]
  refine ⟨fun hoff => ?_, fun hwarnMode => ?_, fun hfatal => ?_⟩
  · rw [verify_off hoff]; rfl
  · rw [verify_warn hwarnMode]; rfl
  · rw [verify_fatal hfatal]
    refine ⟨fun hne => ?_, fun heq hne => ?_, fun heq heq' => ?_⟩
    · rw [if_pos hne]; rfl
    · rw [if_neg (not_not_intro heq), if_pos hne]; rfl
    · rw [if_neg (not_not_intro heq), if_neg (not_not_intro heq')]; rfl

/-! ### What an instruction outside a block leaves alone, whatever its outcome -/

section
variable {p : Slot} {s t u : State}

theorem CoreNext.committedKept (h : CoreNext p s t) (hp : slotPhase p ≠ .block) : committedKept s t :=
  h.committedKept_or_commit.resolve_right fun ⟨_, _, hblock, _⟩ => hp hblock

/-- Only a suspension writes the window, which it cuts back to where its unit began (46_host_interface.md R477). -/
theorem CoreNext.win_eq_or_suspended (h : CoreNext p s t) (hp : slotPhase p ≠ .block) :
    t.win = s.win ∨ ¬ notSuspended t ∧ t.win = s.win.take s.snapWlen := by
  cases h with
  | suspended hu =>
    have hlen := hu.kept State.snapWlen fun _ => rfl
    exact .inr ⟨fun hn => hn rfl rfl, by rw [suspend_win, hu.win_eq hp, hlen]⟩
  | failed e hu => exact .inl (hu.win_eq hp)
  | onward hu => exact .inl (hu.win_eq hp)
  | headerDone hu => exact .inl (hu.win_eq hp)
  | blockDone _ hblock => exact absurd hblock hp
  | trailerDone hu => exact .inl (hu.win_eq hp)

/-- Only the commit of a header begins a unit here, and with it a snapshot (46_host_interface.md R475, R476). -/
theorem CoreNext.snapshotKept_or_headerDone (h : CoreNext p s t) (hp : slotPhase p ≠ .block) :
    snapshotKept s t ∨ slotPhase p = .header ∧ t.phase = .block := by
  cases h with
  | suspended hu => exact .inl hu.snapshotKept
  | failed e hu => exact .inl hu.snapshotKept
  | onward hu => exact .inl hu.snapshotKept
  | headerDone _ hheader => exact .inr ⟨hheader, rfl⟩
  | blockDone _ hblock => exact absurd hblock hp
  | trailerDone hu => exact .inl hu.snapshotKept

theorem CoreNext.errorRegistersKept (h : CoreNext p s t) (hphase : t.phase ≠ .error) :
    t.errCode = s.errCode ∧ t.errDetail = s.errDetail := by
  cases h with
  | suspended hu => exact hu.errorRegistersKept
  | failed e _ => exact absurd rfl hphase
  | onward hu => exact hu.errorRegistersKept
  | headerDone hu => exact hu.errorRegistersKept
  | blockDone hu => exact hu.errorRegistersKept
  | trailerDone hu => exact hu.errorRegistersKept

end

/-! ### A header field takes its bytes straight from the ChunkBuffer (R400 to R407) -/

/-- The bits in BR_BUF are those of `s`. -/
def bitsKept (s u : State) : Prop := u.brBuf = s.brBuf ∧ u.brLen = s.brLen

section
variable {s t u : State}

theorem bitsKept_refl (s : State) : bitsKept s s := ⟨rfl, rfl⟩

theorem ibTake_bitsKept (h : bitsKept s u) : (ibTake u).Sat (bitsKept s) fun _ t => bitsKept s t := by
  unfold ibTake
  split
  · exact h
  · exact sat_underflow h

theorem ibSkip_bitsKept (n : Nat) (h : bitsKept s u) : (ibSkip n u).Sat (bitsKept s) fun _ t => bitsKept s t := by
  induction n generalizing u with
  | zero => exact h
  | succ n ih => exact (ibTake_bitsKept h).bind fun _ _ ht => ih ht

theorem ibSkipNulLoop_bitsKept (fuel : Nat) (h : bitsKept s u) :
    (ibSkipNulLoop fuel u).Sat (bitsKept s) fun _ t => bitsKept s t := by
  induction fuel generalizing u with
  | zero => exact sat_underflow h
  | succ fuel ih =>
    refine (ibTake_bitsKept h).bind fun _ _ ht => ?_
    split
    · exact ht
    · exact ih ht

theorem bitsKept_afterComment (h : bitsKept s u) : bitsKept s (afterComment u) := by
  unfold afterComment; split <;> exact h

theorem bitsKept_afterName (h : bitsKept s u) : bitsKept s (afterName u) := by
  unfold afterName
  split
  · exact h
  · exact bitsKept_afterComment h

theorem bitsKept_afterExtra (h : bitsKept s u) : bitsKept s (afterExtra u) := by
  unfold afterExtra
  split
  · exact h
  · exact bitsKept_afterName h

theorem bitsKept_afterFixed (h : bitsKept s u) : bitsKept s (afterFixed u) := by
  unfold afterFixed
  split
  · exact h
  · exact bitsKept_afterExtra h

/-- An outcome keeps the bits that its reads kept, but for the restore of a suspension. -/
theorem Rd.Sat.settle_bitsKept {r : Rd Unit} (h : r.Sat (bitsKept s) fun _ t => bitsKept s t)
    (hn : notSuspended (settle r)) : bitsKept s (settle r) := by
  cases r with
  | ready _ t => exact h
  | needMoreOpen t => exact absurd rfl (hn rfl)
  | needMoreClosed t => exact h
  | fatal e t => exact h

theorem exec_bitsKept_of_header {i : Instr} (hp : slotPhase (slotOf i) = .header) (h : exec i s = .next t)
    (hn : notSuspended t) : bitsKept s t := by
  have h0 := bitsKept_refl s
  cases i with
  | gzId =>
    cases h
    refine Rd.Sat.settle_bitsKept ((ibTake_bitsKept h0).bind fun _ _ h₁ => (ibTake_bitsKept h₁).bind fun _ _ h₂ => ?_) hn
    split <;> exact h₂
  | gzCm =>
    cases h
    refine Rd.Sat.settle_bitsKept ((ibTake_bitsKept h0).bind fun _ _ h₁ => ?_) hn
    split <;> exact h₁
  | gzFlg => cases h; exact Rd.Sat.settle_bitsKept ((ibTake_bitsKept h0).bind fun _ _ h₁ => h₁) hn
  | gzFtext | gzFlgRsv => cases h; exact h0
  | gzFixed =>
    cases h; exact Rd.Sat.settle_bitsKept ((ibSkip_bitsKept 6 h0).bind fun _ _ h₁ => bitsKept_afterFixed h₁) hn
  | gzFextra =>
    cases h
    exact Rd.Sat.settle_bitsKept ((ibTake_bitsKept h0).bind fun _ _ h₁ => (ibTake_bitsKept h₁).bind fun _ _ h₂ =>
      (ibSkip_bitsKept _ h₂).bind fun _ _ h₃ => bitsKept_afterExtra h₃) hn
  | gzFname =>
    cases h; exact Rd.Sat.settle_bitsKept ((ibSkipNulLoop_bitsKept _ h0).bind fun _ _ h₁ => bitsKept_afterName h₁) hn
  | gzFcomment =>
    cases h; exact Rd.Sat.settle_bitsKept ((ibSkipNulLoop_bitsKept _ h0).bind fun _ _ h₁ => bitsKept_afterComment h₁) hn
  | gzFhcrc => cases h; exact Rd.Sat.settle_bitsKept ((ibSkip_bitsKept 2 h0).bind fun _ _ h₁ => h₁) hn
  | _ => cases hp

end

/-- Settles O53: what no instruction outside a block writes (`CoreNext`), the trailer's registers by `exec_trailerKept`, and
the bits by the reads of a header field (`exec_bitsKept_of_header`). -/
theorem headerFieldFrame : Obligations.HeaderFieldFrame := by
  unfold Obligations.HeaderFieldFrame
  intro i s t hp hsnap h
  obtain ⟨l, hnext⟩ := exec_coreNext h
  have hblock : slotPhase (slotOf i) ≠ .block := fun hb => Phase.noConfusion (hp.symm.trans hb)
  have htrailer : i ≠ .gzTrailer := fun hi => by subst hi; cases hp
  have hwin : t.win = s.win := by
    rcases hnext.win_eq_or_suspended hblock with hkept | ⟨-, hcut⟩
    · exact hkept
    · exact hcut.trans (List.take_of_length_le hsnap.ge)
  refine ⟨hwin, hnext.committedKept hblock, exec_trailerKept htrailer h, hnext.hostFieldsKept, fun hphase => ?_,
    exec_bitsKept_of_header hp h⟩
  exact (hnext.snapshotKept_or_headerDone hblock).resolve_right fun ⟨_, hdone⟩ => hphase hdone

/-! ### When the trailer's registers are written (R420) -/

/-- The run ends with the trailer read whole: DONE, or an error other than Truncated. -/
def EndsVerified (t : State) : Prop := t.result ≠ .needMore ∧ (t.phase = .error → t.errCode ≠ 1)

section
variable {α : Type} {s t : State}

/-- A read that stops the instruction leaves the registers as they were before it. -/
theorem trailerKept_or_endsVerified_bind {Q : α → State → Prop} {r : Rd α} {f : α → State → Rd Unit}
    (hr : r.Sat (trailerKept s) Q)
    (hf : ∀ v t, Q v t → trailerKept s (settle (f v t)) ∨ EndsVerified (settle (f v t))) :
    trailerKept s (settle (r.bind f)) ∨ EndsVerified (settle (r.bind f)) := by
  cases r with
  | ready v t => exact hf v t hr
  | needMoreOpen t => exact .inl hr
  | needMoreClosed t => exact .inl hr
  | fatal e t => exact .inl hr

/-- `Verify` ends the run with DONE, BadCrc or BadSize (45_crc32_validator.md R443 to R446). -/
theorem endsVerified_verify (c z : Word) (s : State) :
    EndsVerified (settle ((verify c z s).bind fun _ t => .ready () (commitTrailer t))) := by
  have hdone (t : State) : EndsVerified (commitTrailer t) := ⟨RunResult.noConfusion, Phase.noConfusion⟩
  have herror {e : FatalError} (he : e.code ≠ 1) (t : State) : EndsVerified (errorEntry e t) :=
    ⟨RunResult.noConfusion, fun _ => he⟩
  cases hmode : s.cfgVerify with
  | off => rw [verify_off hmode]; exact hdone _
  | warn => rw [verify_warn hmode]; exact hdone _
  | fatal =>
    rw [verify_fatal hmode]
    split_ifs with hcrc hsize
    · exact herror (e := .badCrc) (by decide) s
    · exact herror (e := .badSize) (by decide) s
    · exact hdone _

theorem execGzTrailer_trailerKept_or_endsVerified (h : exec .gzTrailer s = .next t) :
    trailerKept s t ∨ EndsVerified t := by
  cases h
  exact trailerKept_or_endsVerified_bind (brWordLe_trailerKept 4 (u := brAlign s) ⟨rfl, rfl, rfl, rfl⟩) fun _ _ h₁ =>
    trailerKept_or_endsVerified_bind (brWordLe_trailerKept 4 h₁) fun _ _ _ => .inr (endsVerified_verify _ _ _)

end

/-- Settles O56: what no instruction outside a block writes (`CoreNext`); the trailer's registers are written only when the
run ends with all of the trailer read (`execGzTrailer_trailerKept_or_endsVerified`). -/
theorem trailerFrame : Obligations.TrailerFrame := by
  unfold Obligations.TrailerFrame
  intro s t h
  have hnext : CoreNext .trailer s t := by
    obtain ⟨_, hexec, hnext⟩ := execGzTrailer_finishes (.refl .trailer s)
    cases h.symm.trans hexec
    exact hnext
  have hblock : slotPhase .trailer ≠ .block := by decide
  refine ⟨hnext.committedKept hblock, hnext.hostFieldsKept, ?_, hnext.stops_of_trailer, fun hn => ?_, fun hshort => ?_,
    hnext.errorRegistersKept⟩
  · exact (hnext.snapshotKept_or_headerDone hblock).resolve_right fun ⟨hheader, _⟩ => Phase.noConfusion hheader
  · exact (hnext.win_eq_or_suspended hblock).resolve_right fun ⟨hsusp, _⟩ => hsusp hn
  · refine (execGzTrailer_trailerKept_or_endsVerified h).resolve_right fun ⟨hresult, herror⟩ => ?_
    rcases hshort with hmore | ⟨hcode, hphase⟩
    · exact hresult hmore
    · exact herror hphase hcode

end Sys2Proof.Machine
end

section
/-! ## The accumulators (45_crc32_validator.md): every step keeps them, and CRC-32 composes -/

namespace Sys2Proof.Machine

/-- Settles O13: `step_accumOk`, by what a step can do (`step_cases`); only a block's commit writes OUT or an accumulator. -/
theorem accumulatorsAreKept : Obligations.AccumulatorsAreKept := by
  unfold Obligations.AccumulatorsAreKept
  intro s t hs h
  exact step_accumOk hs h

/-- CRC-32 composes: the complement that ends the first update is undone by the one that begins the second, so the CRC
register goes on from where it was (45_crc32_validator.md R440). -/
theorem crcUpdate_crcUpdate (c : Word) (x y : List Byte) : crcUpdate (crcUpdate c x) y = crcUpdate c (x ++ y) := by
  have hcancel (r : Word) : r ^^^ 0xFFFFFFFF#32 ^^^ 0xFFFFFFFF#32 = r := by
    rw [BitVec.xor_assoc, BitVec.xor_self, BitVec.xor_zero]
  simp only [crcUpdate, hcancel, List.foldl_append]

/-- Settles O52: `crcUpdate_crcUpdate`; the five check values are evaluations of the CRC register. -/
theorem crcComposes : Obligations.CrcComposes := by
  unfold Obligations.CrcComposes
  exact ⟨crcUpdate_crcUpdate, by simp [crc32, crcUpdate, crcByte, crcBits, crcBit]⟩

end Sys2Proof.Machine
end

section
/-! ## The host's interface (46_host_interface.md): input transactions, H_RUN, suspension, and runs on more input -/

namespace Sys2Proof.Machine

/-! ### The transactions on the input, and the beginning and the end of H_RUN (R471 to R475, R484) -/

/-- Settles O20: a step of the stopped core is the transaction (`step_txn`). -/
theorem inputTransactions : Obligations.InputTransactions := by
  unfold Obligations.InputTransactions
  intro s ts hc
  refine ⟨fun chunk hh => ?_, fun hh => step_txn hc hh, fun hh => step_txn hc hh, fun hh => step_txn hc hh,
    fun hh => step_txn hc hh, fun hh => step_txn hc hh⟩
  rw [step_txn hc hh, hostTxn, hAppend, ibAppend]
  cases s.ibEnd with
  | true => rfl
  | false => rfl

theorem hRun_of_done {s : State} (hp : s.phase = .done) : hRun s = returnToHost .done s := by
  unfold hRun
  rw [hp]

/-- Settles O22: in the three phases of a unit H_RUN is `startUnit` (`hRun_of_firstSlot`). -/
theorem runTakesASnapshot : Obligations.RunTakesASnapshot := by
  unfold Obligations.RunTakesASnapshot
  intro s ts hc hh
  rw [step_txn hc hh, hostTxn]
  refine ⟨?_, fun hp => ?_⟩
  · rintro (hp | hp | hp) <;>
    · rw [hRun_of_firstSlot (by rw [hp]; exact Ctl.noConfusion), startUnit, hp]
      rfl
  · rw [hRun_of_done (s := { s with host := ts }) hp, returnToHost, hc]

/-- Settles O19: every step that goes on lowers `stepsBound` (`coreRun_runBound_stops`), and the pending bits are at most
those received (`availBits_add_pos`). -/
theorem runTerminates : Obligations.RunTerminates := by
  unfold Obligations.RunTerminates
  refine ⟨fun s hs => coreRun_runBound_stops hs, fun s hs hc => runAtomic_stops hs hc, fun s hs => ?_⟩
  have hbits := availBits_add_pos (structOk_iff.mp hs).1
  rw [runBound]
  omega

/-! ### A suspension (R477) -/

theorem Worked.phase_eq {s u : State} (h : Worked s u) : u.phase = s.phase := by
  obtain ⟨heq, -⟩ := h
  have hphase := congrArg State.phase heq
  exact hphase

/-- A step that suspends worked on its unit and gave that back. -/
theorem step_suspended {s t : State} {p : Slot} (hc : s.ctl = .run p) (h : step s = .next t) (hn : ¬ notSuspended t) :
    ∃ u, Worked s u ∧ t = suspend u := by
  have hkept := step_trailerKept hc h (.inr hn)
  cases step_run_cases hc h with
  | suspended hu => exact ⟨_, hu.worked hkept, rfl⟩
  | failed e _ => exact absurd (fun _ => RunResult.noConfusion) hn
  | onward _ _ _ _ => exact absurd Ctl.noConfusion hn
  | headerDone _ _ => exact absurd Ctl.noConfusion hn
  | @blockDone u _ _ =>
    refine absurd (fun hidle => ?_) hn
    rcases commitBlock_begins u with hb | hb <;> cases hb.symm.trans hidle
  | trailerDone _ _ => exact absurd (fun _ => RunResult.noConfusion) hn

/-- Settles O25: what the unit wrote before it suspended is all that the suspension gives back (`Worked.suspend_eq`). -/
theorem suspensionRestoresTheUnit : Obligations.SuspensionRestoresTheUnit := by
  unfold Obligations.SuspensionRestoresTheUnit
  intro s t p hle hc h hidle hresult
  obtain ⟨u, hu, rfl⟩ := step_suspended hc h fun hn => hn hidle hresult
  exact hu.suspend_eq hle

/-! ### More input (R485, "Reason"): what a read, an instruction and a step answer when more bytes follow -/

/-- `s` with `more` received after its input, and with the end latch `latch`. -/
def withInput (more : List Byte) (latch : Bool) (s : State) : State :=
  { s with ibData := s.ibData ++ more, ibEnd := latch }

section
variable {α β : Type} {more : List Byte} {latch : Bool} {s t u : State} {p : Slot}

/-- `r'` is what a read that answers `r` may answer with more input: the same, unless it runs short, and how that ends
the latch says. Only running short is Truncated (60_exceptions.md R512). `Q` holds of the state of `ready`. -/
inductive Rd.Grown (more : List Byte) (latch : Bool) (Q : State → Prop) : Rd α → Rd α → Prop where
  | ready {v : α} {t : State} : Q t → Rd.Grown more latch Q (.ready v t) (.ready v (withInput more latch t))
  | needMoreOpen {t : State} {r' : Rd α} : t.ibEnd = false → Rd.Grown more latch Q (.needMoreOpen t) r'
  | needMoreClosed {t : State} {r' : Rd α} : t.ibEnd = true → Rd.Grown more latch Q (.needMoreClosed t) r'
  | fatal {e : FatalError} {t : State} :
      e ≠ .truncated → Rd.Grown more latch Q (.fatal e t) (.fatal e (withInput more latch t))

/-- Inside an instruction nothing is asked of the state. -/
abbrev Rd.Reads (more : List Byte) (latch : Bool) (r r' : Rd α) : Prop := r.Grown more latch (fun _ => True) r'

/-- Where an instruction ends the core goes on, or H_RUN answers DONE. -/
abbrev Rd.Ends (more : List Byte) (latch : Bool) (r r' : Rd Unit) : Prop :=
  r.Grown more latch (fun t => t.ctl = .idle → t.result = .done) r'

/-- The rule of sequence. -/
theorem Rd.Grown.bind {Q : State → Prop} {r r' : Rd α} {f f' : α → State → Rd β} (hr : r.Reads more latch r')
    (hf : ∀ v t, (f v t).Grown more latch Q (f' v (withInput more latch t))) :
    (r.bind f).Grown more latch Q (r'.bind f') := by
  cases hr with
  | ready _ => exact hf _ _
  | needMoreOpen h => exact .needMoreOpen h
  | needMoreClosed h => exact .needMoreClosed h
  | fatal h => exact .fatal h

theorem Rd.Grown.ite {Q : State → Prop} {c : Prop} [Decidable c] {a b a' b' : Rd α} (ha : a.Grown more latch Q a')
    (hb : b.Grown more latch Q b') : (if c then a else b).Grown more latch Q (if c then a' else b') := by
  split
  · exact ha
  · exact hb

/-! Reads. -/

theorem avail_le_withInput (s : State) : avail s ≤ avail (withInput more latch s) := by
  have hlen : (withInput more latch s).ibData.length = s.ibData.length + more.length := List.length_append
  have hoff : (withInput more latch s).ibOff = s.ibOff := rfl
  unfold avail
  omega

/-- Where a read runs short nothing is said of what it does with more input. -/
theorem underflow_reads (s : State) (r' : Rd α) : (underflow s : Rd α).Reads more latch r' := by
  unfold underflow
  split
  case isTrue h => exact .needMoreClosed h
  case isFalse h => exact .needMoreOpen (Bool.eq_false_iff.mpr h)

theorem ibTake_reads (s : State) : (ibTake s).Reads more latch (ibTake (withInput more latch s)) := by
  rcases Nat.eq_zero_or_pos (avail s) with h0 | h1
  · rw [ibTake_underflow h0]
    exact underflow_reads s _
  · have hoff : s.ibOff < s.ibData.length := by unfold avail at h1; omega
    have hbyte : (s.ibData ++ more).getD s.ibOff 0 = s.ibData.getD s.ibOff 0 := List.getD_append _ _ _ _ hoff
    rw [ibTake_ready h1, ibTake_ready (Nat.le_trans h1 (avail_le_withInput s)), ← hbyte]
    exact .ready trivial

theorem ibSkip_reads (n : Nat) (s : State) : (ibSkip n s).Reads more latch (ibSkip n (withInput more latch s)) := by
  induction n generalizing s with
  | zero => exact .ready trivial
  | succ n ih => exact (ibTake_reads s).bind fun _ t => ih t

/-- A longer input allows more rounds, and the NUL is found in the same one. -/
theorem ibSkipNulLoop_reads {fuel fuel' : Nat} (hle : fuel ≤ fuel') (s : State) :
    (ibSkipNulLoop fuel s).Reads more latch (ibSkipNulLoop fuel' (withInput more latch s)) := by
  induction fuel generalizing fuel' s with
  | zero => exact underflow_reads s _
  | succ fuel ih =>
    obtain ⟨k, rfl⟩ : ∃ k, fuel' = k + 1 := ⟨fuel' - 1, by omega⟩
    exact (ibTake_reads s).bind fun _ t => .ite (.ready trivial) (ih (by omega) t)

theorem ibSkipNul_reads (s : State) : (ibSkipNul s).Reads more latch (ibSkipNul (withInput more latch s)) :=
  ibSkipNulLoop_reads (avail_le_withInput s) s

theorem brFillLoop_reads (fuel n : Nat) (s : State) :
    (brFillLoop fuel n s).Reads more latch (brFillLoop fuel n (withInput more latch s)) := by
  induction fuel generalizing s with
  | zero => exact .ready trivial
  | succ fuel ih => exact .ite ((ibTake_reads s).bind fun b t => ih (brPush b t)) (.ready trivial)

theorem brPeek_reads (n : Nat) (s : State) : (brPeek n s).Reads more latch (brPeek n (withInput more latch s)) :=
  (brFillLoop_reads n n s).bind fun _ _ => .ready trivial

theorem brShift_reads (n : Nat) (s : State) : (brShift n s).Reads more latch (brShift n (withInput more latch s)) :=
  (brFillLoop_reads n n s).bind fun _ _ => .ready trivial

theorem brWordLe_reads (n : Nat) (s : State) :
    (brWordLe n s).Reads more latch (brWordLe n (withInput more latch s)) := by
  induction n generalizing s with
  | zero => exact .ready trivial
  | succ n ih => exact (brShift_reads 8 s).bind fun _ t => (ih t).bind fun _ _ => .ready trivial

theorem decodeSymbol_reads (t : Table) (s : State) :
    (decodeSymbol t s).Reads more latch (decodeSymbol t (withInput more latch s)) :=
  (brPeek_reads t.m s).bind fun _ _ => .ite (.fatal FatalError.noConfusion) (.ready trivial)

theorem lengthValue_reads (k : Nat) (s : State) :
    (lengthValue k s).Reads more latch (lengthValue k (withInput more latch s)) :=
  (brShift_reads _ s).bind fun _ _ => .ready trivial

theorem distanceValue_reads (k : Nat) (s : State) :
    (distanceValue k s).Reads more latch (distanceValue k (withInput more latch s)) :=
  (brShift_reads _ s).bind fun _ _ => .ready trivial

theorem buildTable_reads (lens : List Nat) (s : State) :
    (buildTable lens s).Reads more latch (buildTable lens (withInput more latch s)) := by
  unfold buildTable
  cases build lens with
  | ok t => exact .ready trivial
  | error d => exact .fatal FatalError.noConfusion

theorem readCll_reads (ps cll : List Nat) (s : State) :
    (readCll ps cll s).Reads more latch (readCll ps cll (withInput more latch s)) := by
  induction ps generalizing cll s with
  | nil => exact .ready trivial
  | cons k ps ih => exact (brShift_reads 3 s).bind fun v t => ih (cll.set k v) t

theorem copyStored_reads (n : Nat) (s : State) :
    (copyStored n s).Reads more latch (copyStored n (withInput more latch s)) := by
  induction n generalizing s with
  | zero => exact .ready trivial
  | succ n ih => exact (brShift_reads 8 s).bind fun b t => ih (winWrite (BitVec.ofNat 8 b) t)

theorem copyMatch_withInput (n dist : Nat) (s : State) :
    copyMatch n dist (withInput more latch s) = withInput more latch (copyMatch n dist s) := by
  induction n generalizing s with
  | zero => rfl
  | succ n ih => exact ih (winWrite (winRead dist s) s)

theorem copyBackRef_reads (len dist : Nat) (s : State) :
    (copyBackRef len dist s).Reads more latch (copyBackRef len dist (withInput more latch s)) := by
  refine .ite (.fatal FatalError.noConfusion) ?_
  rw [copyMatch_withInput]
  exact .ready trivial

theorem verify_reads (c sz : Word) (s : State) :
    (verify c sz s).Reads more latch (verify c sz (withInput more latch s)) := by
  have hmode : (withInput more latch s).cfgVerify = s.cfgVerify := rfl
  unfold verify
  rw [hmode]
  cases s.cfgVerify with
  | off => exact .ready trivial
  | warn => exact .ready trivial
  | fatal =>
    exact .ite (.fatal FatalError.noConfusion) (.ite (.fatal FatalError.noConfusion) (.ready trivial))

theorem fetch_reads (p : Slot) (s : State) : (fetch p s).Reads more latch (fetch p (withInput more latch s)) := by
  cases p with
  | bh => exact (brShift_reads 1 s).bind fun _ t => (brShift_reads 2 t).bind fun _ _ => .ready trivial
  | cl | ll | d => exact (decodeSymbol_reads _ s).bind fun _ _ => .ready trivial
  | gzId | gzCm | gzFlg | gzFtext | gzFlgRsv | gzFixed | gzFextra | gzFname | gzFcomment | gzFhcrc =>
    exact .ready trivial
  | stBody | dhCounts | dhCll | trailer => exact .ready trivial

/-! The ends of instructions. -/

theorem goto_ends (p : Slot) (s : State) :
    Rd.Ends more latch (.ready () (goto p s)) (.ready () (goto p (withInput more latch s))) :=
  .ready Ctl.noConfusion

theorem fatal_ends {e : FatalError} (he : e ≠ .truncated) (s : State) :
    Rd.Ends more latch (.fatal e s) (.fatal e (withInput more latch s)) := .fatal he

theorem commitHeader_ends (s : State) :
    Rd.Ends more latch (.ready () (commitHeader s)) (.ready () (commitHeader (withInput more latch s))) :=
  .ready Ctl.noConfusion

theorem commitBlock_ends (s : State) :
    Rd.Ends more latch (.ready () (commitBlock s)) (.ready () (commitBlock (withInput more latch s))) :=
  .ready fun hidle => (commitBlock_begins s).elim (fun hb => Ctl.noConfusion (hb.symm.trans hidle))
    fun hb => Ctl.noConfusion (hb.symm.trans hidle)

/-- A choice between two ends. -/
theorem Rd.Grown.ready_ite {Q : State → Prop} {c : Prop} [Decidable c] {a b a' b' : State}
    (ha : Rd.Grown more latch Q (.ready () a) (.ready () a')) (hb : Rd.Grown more latch Q (.ready () b) (.ready () b')) :
    Rd.Grown more latch Q (.ready () (if c then a else b)) (.ready () (if c then a' else b')) := by
  split
  · exact ha
  · exact hb

theorem afterComment_ends (s : State) :
    Rd.Ends more latch (.ready () (afterComment s)) (.ready () (afterComment (withInput more latch s))) :=
  .ready_ite (goto_ends .gzFhcrc s) (commitHeader_ends s)

theorem afterName_ends (s : State) :
    Rd.Ends more latch (.ready () (afterName s)) (.ready () (afterName (withInput more latch s))) :=
  .ready_ite (goto_ends .gzFcomment s) (afterComment_ends s)

theorem afterExtra_ends (s : State) :
    Rd.Ends more latch (.ready () (afterExtra s)) (.ready () (afterExtra (withInput more latch s))) :=
  .ready_ite (goto_ends .gzFname s) (afterName_ends s)

theorem afterFixed_ends (s : State) :
    Rd.Ends more latch (.ready () (afterFixed s)) (.ready () (afterFixed (withInput more latch s))) :=
  .ready_ite (goto_ends .gzFextra s) (afterExtra_ends s)

theorem nextCodeLength_ends (s : State) :
    (nextCodeLength s).Ends more latch (nextCodeLength (withInput more latch s)) :=
  .ite (goto_ends .cl s) <| (buildTable_reads _ s).bind fun _ t => (buildTable_reads _ t).bind fun _ u =>
    goto_ends .ll { u with loc := _ }

theorem appendRun_ends (r v : Nat) (s : State) :
    (appendRun r v s).Ends more latch (appendRun r v (withInput more latch s)) :=
  .ite (fatal_ends FatalError.noConfusion s) (nextCodeLength_ends (appendLens (List.replicate r v) s))

/-- `o'` is what a step that ends in the given state may do with more input: the same, unless it ran short. -/
inductive StepGrown (more : List Byte) (latch : Bool) (o' : Host.Outcome State Fault Refusal) : State → Prop where
  | same {t : State} : o' = .next (withInput more latch t) → (t.ctl = .idle → t.result = .done) →
      StepGrown more latch o' t
  | suspended {u : State} : u.ibEnd = false → StepGrown more latch o' (suspend u)
  | truncated {u : State} : u.ibEnd = true → StepGrown more latch o' (errorEntry .truncated u)
  | failed {u : State} {e : FatalError} : o' = .next (withInput more latch (errorEntry e u)) → e ≠ .truncated →
      StepGrown more latch o' (errorEntry e u)

/-- `o'` is what an instruction that ends as `o` may do with more input. -/
def OutcomeGrown (more : List Byte) (latch : Bool) (o o' : Host.Outcome State Fault Refusal) : Prop :=
  ∃ t, o = .next t ∧ StepGrown more latch o' t

theorem Rd.Grown.finish {r r' : Rd Unit} (h : r.Ends more latch r') :
    OutcomeGrown more latch (Machine.finish r) (Machine.finish r') := by
  refine ⟨_, rfl, ?_⟩
  cases h with
  | ready h => exact .same rfl h
  | needMoreOpen h => exact .suspended h
  | needMoreClosed h => exact .truncated h
  | fatal h => exact .failed rfl h

theorem execStBody_grown (s : State) :
    OutcomeGrown more latch (execStBody s) (execStBody (withInput more latch s)) :=
  Rd.Grown.finish <| (brShift_reads 16 (brAlign s)).bind fun len t => (brShift_reads 16 t).bind fun _ u =>
    .ite (fatal_ends FatalError.noConfusion u) <| (copyStored_reads len u).bind fun _ v => commitBlock_ends v

theorem execGzTrailer_grown (s : State) :
    OutcomeGrown more latch (execGzTrailer s) (execGzTrailer (withInput more latch s)) :=
  Rd.Grown.finish <| (brWordLe_reads 4 (brAlign s)).bind fun c t => (brWordLe_reads 4 t).bind fun sz u =>
    (verify_reads _ _ { u with trlCrc := BitVec.ofNat 32 c, trlIsize := BitVec.ofNat 32 sz }).bind fun _ _ =>
      .ready fun _ => rfl

theorem exec_grown (i : Instr) (s : State) : OutcomeGrown more latch (exec i s) (exec i (withInput more latch s)) := by
  cases i with
  | gzId =>
    exact Rd.Grown.finish <| (ibTake_reads s).bind fun _ t => (ibTake_reads t).bind fun _ u =>
      .ite (fatal_ends FatalError.noConfusion u) (goto_ends .gzCm u)
  | gzCm =>
    exact Rd.Grown.finish <| (ibTake_reads s).bind fun _ t =>
      .ite (fatal_ends FatalError.noConfusion t) (goto_ends .gzFlg t)
  | gzFlg =>
    exact Rd.Grown.finish <| (ibTake_reads s).bind fun flg t => goto_ends _ { t with loc := { t.loc with flg := flg } }
  | gzFtext => exact Rd.Grown.finish (goto_ends .gzFlgRsv s)
  | gzFlgRsv => exact Rd.Grown.finish (goto_ends .gzFixed s)
  | gzFixed => exact Rd.Grown.finish <| (ibSkip_reads 6 s).bind fun _ t => afterFixed_ends t
  | gzFextra =>
    exact Rd.Grown.finish <| (ibTake_reads s).bind fun _ t => (ibTake_reads t).bind fun _ u =>
      (ibSkip_reads _ u).bind fun _ v => afterExtra_ends v
  | gzFname => exact Rd.Grown.finish <| (ibSkipNul_reads s).bind fun _ t => afterName_ends t
  | gzFcomment => exact Rd.Grown.finish <| (ibSkipNul_reads s).bind fun _ t => afterComment_ends t
  | gzFhcrc => exact Rd.Grown.finish <| (ibSkip_reads 2 s).bind fun _ t => commitHeader_ends t
  | blkStored f => exact Rd.Grown.finish (goto_ends .stBody (openBlock f 0 s))
  | blkFixed f => exact Rd.Grown.finish (goto_ends .ll (openBlock f 1 s))
  | blkDynamic f => exact Rd.Grown.finish (goto_ends .dhCounts (openBlock f 2 s))
  | blkReserved f => exact Rd.Grown.finish (fatal_ends FatalError.noConfusion (openBlock f 3 s))
  | stBody => exact execStBody_grown s
  | dhCounts =>
    exact Rd.Grown.finish <| (brShift_reads 5 s).bind fun _ t => (brShift_reads 5 t).bind fun _ u =>
      (brShift_reads 4 u).bind fun _ v => goto_ends .dhCll { v with loc := _ }
  | dhCll =>
    exact Rd.Grown.finish <| (readCll_reads _ _ s).bind fun cll t => (buildTable_reads cll t).bind fun _ u =>
      goto_ends .cl { u with loc := _ }
  | clLen n => exact Rd.Grown.finish (nextCodeLength_ends (appendLens [n] s))
  | clRep =>
    exact Rd.Grown.finish <| .ite (fatal_ends FatalError.noConfusion s) <|
      (brShift_reads 2 s).bind fun _ t => appendRun_ends _ _ t
  | clZero3 => exact Rd.Grown.finish <| (brShift_reads 3 s).bind fun _ t => appendRun_ends _ _ t
  | clZero11 => exact Rd.Grown.finish <| (brShift_reads 7 s).bind fun _ t => appendRun_ends _ _ t
  | lit b => exact Rd.Grown.finish (goto_ends .ll (winWrite b s))
  | eob => exact Rd.Grown.finish (commitBlock_ends s)
  | len257 | len258 | len259 | len260 | len261 | len262 | len263 | len264 | len265 | len266 | len267 | len268 | len269
  | len270 | len271 | len272 | len273 | len274 | len275 | len276 | len277 | len278 | len279 | len280 | len281 | len282
  | len283 | len284 | len285 =>
    exact Rd.Grown.finish <| (lengthValue_reads _ s).bind fun _ t => goto_ends .d { t with loc := _ }
  | illLen n => exact Rd.Grown.finish (fatal_ends FatalError.noConfusion s)
  | dist0 | dist1 | dist2 | dist3 | dist4 | dist5 | dist6 | dist7 | dist8 | dist9 | dist10 | dist11 | dist12 | dist13
  | dist14 | dist15 | dist16 | dist17 | dist18 | dist19 | dist20 | dist21 | dist22 | dist23 | dist24 | dist25 | dist26
  | dist27 | dist28 | dist29 =>
    exact Rd.Grown.finish <| (distanceValue_reads _ s).bind fun dist t =>
      (copyBackRef_reads t.loc.len dist t).bind fun _ u => goto_ends .ll u
  | illDist n => exact Rd.Grown.finish (fatal_ends FatalError.noConfusion s)
  | gzTrailer => exact execGzTrailer_grown s

/-- What a step of the running core does with more input. -/
theorem step_grown (hc : s.ctl = .run p) (h : step s = .next t) :
    StepGrown more latch (step (withInput more latch s)) t := by
  have hc' : (withInput more latch s).ctl = .run p := hc
  have hfetch := fetch_reads (more := more) (latch := latch) p s
  simp only [step, hc] at h
  simp only [step, hc']
  generalize fetch p s = r at h hfetch
  generalize fetch p (withInput more latch s) = r' at hfetch
  cases hfetch with
  | @ready v u _ =>
    cases v with
    | ok i =>
      obtain ⟨t', ht', hgrown⟩ := exec_grown (more := more) (latch := latch) i u
      cases h.symm.trans ht'
      exact hgrown
    | error e => cases h
  | needMoreOpen hopen => cases h; exact .suspended hopen
  | needMoreClosed hend => cases h; exact .truncated hend
  | fatal he => cases h; exact .failed rfl he

end

/-- A step of the core on a closed stream does not suspend (60_exceptions.md R512). -/
theorem step_closed {s t : State} {p : Slot} (hc : s.ctl = .run p) (hend : s.ibEnd = true) (h : step s = .next t)
    (hidle : t.ctl = .idle) : t.result = .done ∨ t.result = .error := by
  obtain ⟨-, hkept, -⟩ := (step_run_cases hc h).hostFieldsKept
  cases step_grown (more := []) (latch := true) hc h with
  | same _ hdone => exact .inl (hdone hidle)
  | suspended hopen => cases hopen.symm.trans (hkept.trans hend)
  | truncated _ => exact .inr rfl
  | failed _ _ => exact .inr rfl

/-- Only Truncated has the code 1 (60_exceptions.md R501). -/
theorem FatalError.code_eq_one {e : FatalError} (h : e.code = 1) : e = .truncated := by
  cases e with
  | truncated => rfl
  | _ => simp [FatalError.code] at h

/-- Where a step writes ERR_CODE it entered an error. -/
theorem CoreNext.errCode_cases {s t : State} {p : Slot} (h : CoreNext p s t) :
    t.errCode = s.errCode ∨ t.ctl = .idle ∧ t.result = .error := by
  cases h with
  | suspended hu => exact .inl (hu.kept State.errCode fun _ => rfl)
  | failed _ _ => exact .inr ⟨rfl, rfl⟩
  | onward hu _ _ _ => exact .inl (hu.kept State.errCode fun _ => rfl)
  | headerDone hu _ => exact .inl (hu.kept State.errCode fun _ => rfl)
  | blockDone hu _ => exact .inl (hu.kept State.errCode fun _ => rfl)
  | trailerDone hu _ => exact .inl (hu.kept State.errCode fun _ => rfl)

/-- A step of the core on an open stream does not raise Truncated (60_exceptions.md R513). -/
theorem step_open {s t : State} {p : Slot} (hc : s.ctl = .run p) (hopen : s.ibEnd = false) (h : step s = .next t)
    (hcode : t.errCode = 1) : s.errCode = 1 := by
  obtain ⟨-, hkept, -⟩ := (step_run_cases hc h).hostFieldsKept
  rcases (step_run_cases hc h).errCode_cases with heq | ⟨hidle, herror⟩
  · exact heq.symm.trans hcode
  · cases step_grown (more := []) (latch := false) hc h with
    | same _ hdone => cases herror.symm.trans (hdone hidle)
    | suspended _ => cases herror
    | truncated hend => cases hend.symm.trans (hkept.trans hopen)
    | failed _ he => exact absurd (FatalError.code_eq_one hcode) he

/-- Settles O26: how a read that runs short ends the latch says, and nothing else suspends or truncates (`step_grown`). -/
theorem closedStreamsTruncateOpenOnesSuspend : Obligations.ClosedStreamsTruncateOpenOnesSuspend := by
  unfold Obligations.ClosedStreamsTruncateOpenOnesSuspend
  exact ⟨fun _ _ _ hc hend h hidle => step_closed hc hend h hidle,
    fun _ _ _ hc hopen h hcode => step_open hc hopen h hcode⟩

/-- Settles O28: a step does the same with more input unless it ran short (`step_grown`), and the two ways of running short
are those left out: the core stopped, in the unit's own phase or with Truncated. -/
theorem stepIgnoresLaterInput : Obligations.StepIgnoresLaterInput := by
  unfold Obligations.StepIgnoresLaterInput
  intro s t p more latch hs hc h hcase
  have hphase := hs.phase_of_run hc
  obtain ⟨hnerror, hndone⟩ := hphase ▸ slotPhase_running p
  cases step_grown (more := more) (latch := latch) hc h with
  | same hsame _ => exact hsame
  | failed hsame _ => exact hsame
  | suspended _ =>
    obtain ⟨v, hv, heq⟩ := step_suspended hc h fun hn => hn rfl rfl
    rw [heq] at hcase
    rcases hcase with hrun | hdone | ⟨herror, -⟩
    · exact absurd rfl hrun
    · exact absurd (hv.phase_eq.symm.trans hdone) hndone
    · exact absurd (hv.phase_eq.symm.trans herror) hnerror
  | truncated _ =>
    rcases hcase with hrun | hdone | ⟨-, hcode⟩
    · exact absurd rfl hrun
    · cases hdone
    · exact absurd rfl hcode

/-! ### Runs on more input -/

section
variable {rest : List Byte} {more : List Byte} {latch : Bool} {s t u a b : State} {p : Slot}

theorem CoreStep.ibEnd_eq (h : CoreStep s t) : t.ibEnd = s.ibEnd := by
  obtain ⟨p, hc⟩ := h.run
  obtain ⟨-, hkept, -⟩ := (step_run_cases hc h.2).hostFieldsKept
  exact hkept

theorem CoreReaches.ibEnd_eq (h : CoreReaches s t) : t.ibEnd = s.ibEnd := by
  induction h with
  | refl => rfl
  | tail _ hstep ih => exact hstep.ibEnd_eq.trans ih

/-- The core appends to OUT (20_memory.md R76). -/
theorem CoreReaches.out_prefix (h : CoreReaches s t) : s.out <+: t.out := by
  induction h with
  | refl => exact List.prefix_rfl
  | tail _ hstep ih =>
    obtain ⟨hout, -⟩ := outputIsAppendOnly _ _ (fun _ hidle => absurd hidle hstep.1) hstep.2
    exact ih.trans hout

theorem CoreReaches.inv (h : CoreReaches s t) (hs : Safety.Inv s) : Safety.Inv t := by
  induction h with
  | refl => exact hs
  | tail _ hstep ih => exact step_inv ih hstep.2

/-- On an open stream the core does the same with more input, as far as it does not suspend. -/
theorem CoreStep.withInput (h : CoreStep s t) (hopen : s.ibEnd = false) (hn : notSuspended t) :
    CoreStep (withInput more latch s) (withInput more latch t) := by
  obtain ⟨p, hc⟩ := h.run
  have hend := h.ibEnd_eq.trans hopen
  refine ⟨h.1, ?_⟩
  cases step_grown (more := more) (latch := latch) hc h.2 with
  | same hsame _ => exact hsame
  | suspended _ => exact absurd rfl (hn rfl)
  | truncated hclosed => cases hclosed.symm.trans hend
  | failed hsame _ => exact hsame

theorem CoreReaches.withInput (h : CoreReaches s t) (hopen : s.ibEnd = false) (hn : notSuspended t) :
    CoreReaches (withInput more latch s) (withInput more latch t) := by
  induction h with
  | refl => exact .refl
  | tail hreach hstep ih =>
    have hrun := ih fun hidle => absurd hidle hstep.1
    exact hrun.tail (hstep.withInput (CoreReaches.ibEnd_eq hreach |>.trans hopen) hn)

/-- A running core that a unit's beginning reaches is inside a unit that began on the way. -/
theorem CoreReaches.running_unit (h : CoreReaches s t) (hs : Begins s) (hrun : t.ctl ≠ .idle) :
    ∃ b, Begins b ∧ CoreReaches s b ∧ Worked b t := by
  induction h with
  | refl => exact ⟨s, hs, .refl, .refl s⟩
  | tail hreach hstep ih =>
    obtain ⟨b, hb, hsb, hwork⟩ := ih hstep.1
    obtain ⟨p, hc⟩ := hstep.run
    cases step_unitNext hb hwork hc hstep.2 with
    | suspended => exact absurd rfl hrun
    | stopped hidle _ => exact absurd hidle hrun
    | onward _ hwork' => exact ⟨b, hb, hsb, hwork'⟩
    | begun hbegins => exact ⟨_, hbegins, hreach.tail hstep, .refl _⟩

/-- Where the core stops it suspends a unit that began on the way, or it does not suspend. -/
theorem CoreReaches.stop_cases (h : CoreReaches s t) (hs : Begins s) (hidle : t.ctl = .idle) :
    notSuspended t ∨ ∃ b, Begins b ∧ CoreReaches s b ∧ t = returnToHost .needMore b := by
  rcases h.cases_tail with rfl | ⟨u, hreach, hstep⟩
  · exact absurd hidle hs.running
  · obtain ⟨b, hb, hsb, hwork⟩ := CoreReaches.running_unit hreach hs hstep.1
    obtain ⟨p, hc⟩ := hstep.run
    cases step_unitNext hb hwork hc hstep.2 with
    | suspended => exact .inr ⟨b, hb, hsb, rfl⟩
    | stopped _ hn => exact .inl hn
    | onward hrun _ => exact absurd hidle hrun
    | begun hbegins => exact absurd hidle hbegins.running

/-- On a closed stream a run ends the same whatever the last H_RUN answered: it answers anew, and not NEED_MORE. -/
theorem CoreReaches.rerun_closed (h : CoreReaches s t) (hrun : s.ctl ≠ .idle) (hidle : t.ctl = .idle)
    (hend : s.ibEnd = true) : CoreReaches (Machine.rerun s) t := by
  induction h using Relation.ReflTransGen.head_induction_on with
  | refl => exact absurd hidle hrun
  | @head s v hstep hreach ih =>
    obtain ⟨p, hc⟩ := hstep.run
    have hc' : (Machine.rerun s).ctl = .run p := hc
    rcases step_rerun hc hstep.2 with hnext | hnext
    · by_cases hv : v.ctl = .idle
      · rcases step_closed hc' hend hnext hv with hresult | hresult <;> cases hresult
      · exact .head (.of_run hc' hnext) (ih hv (hstep.ibEnd_eq.trans hend))
    · exact .head (.of_run hc' hnext) hreach

/-- H_RUN ends where the core stops. -/
theorem runAtomic_eq (hs : StructOk s) (hc : s.ctl = .idle) (h : CoreReaches (hRun s) t) (ht : t.ctl = .idle) :
    runAtomic s = t :=
  (coreReaches_coreRun _ _).stop_unique (runAtomic_stops hs hc) h ht

/-! ### The stream in chunks (R485) -/

theorem HostNext.inv (h : HostNext s t) (hc : s.ctl = .idle) (hs : Safety.Inv s) : Safety.Inv t := by
  obtain ⟨hstruct, haccum, hwindow, hstatus⟩ := hs
  exact ⟨h.structOk hc hstruct, h.accumOk haccum, h.windowOk hc hwindow, h.statusOk hstatus⟩

theorem inv_runAtomic (hs : Safety.Inv s) (hc : s.ctl = .idle) : Safety.Inv (runAtomic s) :=
  (coreReaches_coreRun _ _).inv ((hRun_hostNext s).inv hc hs)

/-- Where the block stands between two H_RUN on an open stream: the core is stopped and meets the invariant. -/
structure Awaiting (s : State) : Prop where
  inv : Safety.Inv s
  stopped : s.ctl = .idle
  stream_open : s.ibEnd = false

theorem Awaiting.structOk (h : Awaiting s) : StructOk s := h.inv.1

theorem Awaiting.statusOk (h : Awaiting s) : StatusOk s := by
  obtain ⟨-, -, -, hstatus⟩ := h.inv
  exact hstatus

/-- `H_APPEND(rest); H_CLOSE; H_RUN`: the end of the stream. -/
def finishWith (rest : List Byte) (s : State) : State := runAtomic (hClose (hAppend rest s))

theorem hAppend_open (h : s.ibEnd = false) (chunk : List Byte) :
    hAppend chunk s = { s with ibData := s.ibData ++ chunk, reply := .nothing } := by
  unfold hAppend ibAppend
  rw [h]
  rfl

/-- `s` after the rest of the stream was appended and the stream closed. -/
def closedWith (rest : List Byte) (s : State) : State := { withInput rest true s with reply := .nothing }

theorem hClose_hAppend_open (h : s.ibEnd = false) (rest : List Byte) :
    hClose (hAppend rest s) = closedWith rest s := by
  rw [hAppend_open h]
  rfl

/-- The rest of the stream after a chunk. -/
theorem hClose_hAppend_append (h : s.ibEnd = false) (chunk rest : List Byte) :
    hClose (hAppend (chunk ++ rest) s) = withInput rest true (hAppend chunk s) := by
  rw [hAppend_open h, hAppend_open h, ← List.append_assoc]
  rfl

theorem hRun_withInput (more : List Byte) (latch : Bool) (s : State) :
    hRun (withInput more latch s) = withInput more latch (hRun s) := by
  have hphase : (withInput more latch s).phase = s.phase := rfl
  unfold hRun
  rw [hphase]
  cases s.phase <;> rfl

theorem Awaiting.appended (h : Awaiting s) (chunk : List Byte) : Awaiting (hAppend chunk s) where
  inv := (hAppend_hostNext chunk s).inv h.stopped h.inv
  stopped := by rw [hAppend_open h.stream_open]; exact h.stopped
  stream_open := by rw [hAppend_open h.stream_open]; exact h.stream_open

theorem ibEnd_hRun (s : State) : (hRun s).ibEnd = s.ibEnd := by
  unfold hRun
  split <;> rfl

theorem Awaiting.ran (h : Awaiting s) : Awaiting (runAtomic s) where
  inv := inv_runAtomic h.inv h.stopped
  stopped := runAtomic_stops h.structOk h.stopped
  stream_open := (coreReaches_coreRun _ _).ibEnd_eq.trans ((ibEnd_hRun s).trans h.stream_open)

/-- The stream closed with the rest of the input appended. -/
theorem Awaiting.closed (h : Awaiting s) (rest : List Byte) :
    StructOk (hClose (hAppend rest s)) ∧ (hClose (hAppend rest s)).ctl = .idle :=
  have happended := h.appended rest
  ⟨HostNext.structOk (hostTxn_hostNext .close _) happended.stopped happended.structOk, happended.stopped⟩

/-- Where no unit is left H_RUN answers what it answered before (46_host_interface.md R474). -/
theorem hRun_of_no_unit (hs : StatusOk s) (h : firstSlot s.phase = .idle) : hRun s = returnToHost s.result s := by
  obtain ⟨-, -, -, -, -, herror, hdone⟩ := hs
  unfold hRun
  split
  case h_1 hp => rw [hdone hp]
  case h_2 hp => rw [herror hp]
  case h_3 hp => rw [hp] at h; cases h
  case h_4 hp => rw [hp] at h; cases h
  case h_5 hp => rw [hp] at h; cases h

theorem hostView_runAtomic_of_no_unit (hs : StatusOk s) (h : firstSlot s.phase = .idle) :
    hostView (runAtomic s) = hostView s := by
  rw [runAtomic, hRun_of_no_unit hs h, coreRun_of_idle rfl]
  rfl

/-- Where no unit is left to run the rest of the stream changes nothing that the host sees. -/
theorem Awaiting.hostView_finishWith (h : Awaiting s) (hp : firstSlot s.phase = .idle) (rest : List Byte) :
    hostView (finishWith rest s) = hostView s := by
  rw [finishWith, hClose_hAppend_open h.stream_open]
  exact hostView_runAtomic_of_no_unit (s := closedWith rest s) h.statusOk hp

/-- A core that stopped without suspending on an open stream has no unit left. -/
theorem CoreReaches.no_unit_of_stop (h : CoreReaches s t) (hrun : s.ctl ≠ .idle) (hidle : t.ctl = .idle)
    (hn : notSuspended t) : firstSlot t.phase = .idle := by
  rcases h.cases_tail with rfl | ⟨u, -, hstep⟩
  · exact absurd hidle hrun
  · obtain ⟨p, hc⟩ := hstep.run
    cases step_run_cases hc hstep.2 with
    | suspended _ => exact absurd rfl (hn rfl)
    | failed _ _ => rfl
    | onward _ _ _ _ => cases hidle
    | headerDone _ _ => cases hidle
    | @blockDone v _ _ => rcases commitBlock_begins v with hb | hb <;> cases hb.symm.trans hidle
    | trailerDone _ _ => rfl

/-- H_RUN of a unit that suspended, on the rest of the stream, begins the unit again. -/
theorem Begins.hRun_closedWith (hb : Begins b) (rest : List Byte) :
    hRun (closedWith rest (returnToHost .needMore b)) = closedWith rest { b with result := .needMore } := by
  have hfirst : firstSlot b.phase ≠ .idle := fun h => hb.running (by rw [← hb.snapshot_taken]; exact h)
  rw [hRun_of_firstSlot (s := closedWith rest (returnToHost .needMore b)) hfirst]
  exact congrArg (fun b => closedWith rest { b with result := .needMore }) hb.snapshot_taken

/-- A unit that suspended ends, on the rest of the stream, as it does if it never suspended. -/
theorem finishWith_suspended (hb : Begins b) (hopen : b.ibEnd = false) (hw : Awaiting (returnToHost .needMore b))
    (h : CoreReaches (withInput rest true b) t) (ht : t.ctl = .idle) :
    finishWith rest (returnToHost .needMore b) = t := by
  obtain ⟨hstruct, hidle⟩ := hw.closed rest
  have hstops : (finishWith rest (returnToHost .needMore b)).ctl = .idle := runAtomic_stops hstruct hidle
  have hreach : CoreReaches (hRun _) (finishWith rest (returnToHost .needMore b)) := coreReaches_coreRun _ _
  rw [hClose_hAppend_open (s := returnToHost .needMore b) hopen, hb.hRun_closedWith] at hreach
  have hagain := hreach.rerun_closed hb.running hstops rfl
  exact hagain.stop_unique hstops (h.rerun_closed hb.running ht rfl) ht

/-- One H_RUN in the middle of the stream does not change how it ends. -/
theorem Awaiting.finishWith_runAtomic (ha : Awaiting a) (rest : List Byte) (hwhole : StructOk (withInput rest true a)) :
    hostView (finishWith rest (runAtomic a)) = hostView (runAtomic (withInput rest true a)) := by
  by_cases hp : firstSlot a.phase = .idle
  · have hran := hostView_runAtomic_of_no_unit ha.statusOk hp
    have hphase : (runAtomic a).phase = a.phase := by
      rw [runAtomic, hRun_of_no_unit ha.statusOk hp, coreRun_of_idle rfl]
      rfl
    rw [ha.ran.hostView_finishWith (hphase ▸ hp) rest, hran]
    exact (hostView_runAtomic_of_no_unit (s := withInput rest true a) ha.statusOk hp).symm
  · have hbegins := begins_hRun ha.structOk ha.stopped hp
    have hreach : CoreReaches (hRun a) (runAtomic a) := coreReaches_coreRun _ _
    have hopen : (hRun a).ibEnd = false := (ibEnd_hRun a).trans ha.stream_open
    have hidle := ha.ran.stopped
    rcases hreach.stop_cases hbegins hidle with hn | ⟨b, hb, hab, heq⟩
    · have hmore := hreach.withInput (more := rest) (latch := true) hopen hn
      rw [← hRun_withInput] at hmore
      rw [ha.ran.hostView_finishWith (hreach.no_unit_of_stop hbegins.running hidle hn) rest,
        runAtomic_eq hwhole ha.stopped hmore hidle]
      rfl
    · have hmore := hab.withInput (more := rest) (latch := true) hopen fun h => absurd h hb.running
      rw [← hRun_withInput] at hmore
      have hb' := hmore.structOk ((hRun_hostNext _).structOk ha.stopped hwhole)
      have hstops := coreRun_runBound_stops hb'
      have hend := coreReaches_coreRun (runBound (withInput rest true b)) (withInput rest true b)
      have hsuspended := heq ▸ ha.ran
      rw [heq, finishWith_suspended hb (hab.ibEnd_eq.trans hopen) hsuspended hend hstops,
        runAtomic_eq hwhole ha.stopped (hmore.trans hend) hstops]

/-- H_CLOSE with nothing left of the stream. -/
theorem runAtomic_hClose (h : s.ibEnd = false) : runAtomic (hClose s) = finishWith [] s := by
  rw [finishWith, hAppend_open h, List.append_nil]
  rfl

/-- A chunk appended and run on its own does not change how the stream ends. -/
theorem Awaiting.finishWith_chunk (h : Awaiting s) (chunk rest : List Byte) :
    hostView (finishWith rest (runAtomic (hAppend chunk s))) = hostView (finishWith (chunk ++ rest) s) := by
  have hwhole := (h.closed (chunk ++ rest)).1
  rw [hClose_hAppend_append h.stream_open] at hwhole
  rw [(h.appended chunk).finishWith_runAtomic rest hwhole, finishWith, hClose_hAppend_append h.stream_open]

theorem feed_cons (chunk : List Byte) (chunks : List (List Byte)) (s : State) :
    feed (chunk :: chunks) s = feed chunks (runAtomic (hAppend chunk s)) := rfl

theorem Awaiting.fed (h : Awaiting s) (chunks : List (List Byte)) : Awaiting (feed chunks s) := by
  induction chunks generalizing s with
  | nil => exact h
  | cons chunk chunks ih => exact ih (h.appended chunk).ran

/-- The chunks of a stream may be run one by one. -/
theorem Awaiting.finishWith_feed (h : Awaiting s) (chunks : List (List Byte)) (rest : List Byte) :
    hostView (finishWith rest (feed chunks s)) = hostView (finishWith (chunks.flatten ++ rest) s) := by
  induction chunks generalizing s with
  | nil => rfl
  | cons chunk chunks ih =>
    rw [feed_cons, ih (h.appended chunk).ran, h.finishWith_chunk, List.flatten_cons, List.append_assoc]

theorem out_eq_of_hostView (h : hostView s = hostView t) : s.out = t.out :=
  congrArg (fun v => v.2.2.2.1) h

theorem Awaiting.out_prefix (h : Awaiting s) (rest : List Byte) : s.out <+: (finishWith rest s).out := by
  have hreach : CoreReaches (hRun _) (finishWith rest s) := coreReaches_coreRun _ _
  obtain ⟨hout, -⟩ := (hRun_kept (hClose (hAppend rest s))).committed
  have hprefix := hreach.out_prefix
  rw [hout, hClose_hAppend_open h.stream_open] at hprefix
  exact hprefix

end

theorem inv_reset : Safety.Inv State.reset :=
  ⟨⟨wf_reset, initial_inRange.1, .inr rfl, cursorOk_reset⟩, by decide, windowOk_of_eq rfl rfl, by decide⟩

/-- After reset the block awaits its stream, whatever the verification mode. -/
theorem awaiting_reset (v : BitVec 2) : Awaiting (hConfig v State.reset) where
  inv := (hConfig_hostNext v State.reset).inv rfl inv_reset
  stopped := by unfold hConfig; split <;> rfl
  stream_open := by unfold hConfig; split <;> rfl

/-- Settles O29: running a chunk before the rest comes does not change how the stream ends (`Awaiting.finishWith_chunk`): the
steps of a unit that does not run short are the same with more input (`CoreReaches.withInput`), and one that does begins
again (`finishWith_suspended`). -/
theorem chunkingIndependence : Obligations.ChunkingIndependence := by
  unfold Obligations.ChunkingIndependence
  intro v chunks
  have hreset := awaiting_reset v
  refine ⟨?_, fun k => ?_⟩
  · have hview := hreset.finishWith_feed chunks []
    rw [List.append_nil] at hview
    rw [runAtomic_hClose (hreset.fed chunks).stream_open]
    exact hview
  · have hview := hreset.finishWith_feed (chunks.take k) (chunks.drop k).flatten
    rw [← List.flatten_append, List.take_append_drop] at hview
    have hprefix := (hreset.fed (chunks.take k)).out_prefix (chunks.drop k).flatten
    rw [out_eq_of_hostView hview] at hprefix
    exact hprefix

end Sys2Proof.Machine
end

section
/-! ## The exceptions family (60_exceptions.md): the error entry, ERROR is sticky, no step stops the model, and when the
trailer's registers may be set -/

namespace Sys2Proof.Machine

/-! ### The error entry (R501, R502, R510, R512) -/

/-- Settles O24: `settle_fatal` and `settle_needMoreClosed`; the codes and details are the tables of R501 and R502. -/
theorem errorEntryEffect : Obligations.ErrorEntryEffect := by
  unfold Obligations.ErrorEntryEffect
  exact ⟨settle_fatal, settle_needMoreClosed, rfl, rfl, fun _ => rfl, fun _ => ⟨rfl, rfl⟩, rfl, rfl, rfl, rfl, rfl, rfl,
    rfl, rfl, rfl, rfl, rfl, rfl⟩

/-! ### No step stops the model (R500) -/

/-- Settles O17: `step_goes`. -/
theorem stepNeverStops : Obligations.StepNeverStops := by
  unfold Obligations.StepNeverStops
  exact fun _ hs => step_goes hs

/-! ### ERROR is sticky (R511) -/

/-- Where PHASE selects no unit, no transaction starts the core (46_host_interface.md R474). -/
theorem HostNext.stays_stopped {s t : State} (h : HostNext s t) (hc : s.ctl = .idle) (hp : firstSlot s.phase = .idle) :
    t.ctl = .idle := by
  cases h with
  | reset => rfl
  | begun hunit => exact absurd hp hunit
  | returned _ => rfl
  | served => exact hc

/-- Settles O23: each step is the transaction (`step_txn`); H_RUN finds no unit to run (`hRun_of_no_unit`), and only H_RESET
writes PHASE (`hostTxn_kept`). -/
theorem errorIsSticky : Obligations.ErrorIsSticky := by
  unfold Obligations.ErrorIsSticky
  intro s ts hs hc hp
  have hno : firstSlot s.phase = .idle := by rw [hp]; rfl
  have hresult : s.result = .error := by
    obtain ⟨-, -, -, -, -, herror, -⟩ := hs
    exact herror hp
  refine ⟨fun hh => ?_, fun _ hh => step_txn hc hh, fun hh => step_txn hc hh, fun _ hh => step_txn hc hh,
    fun q t hh hq h => ?_, fun hh => ⟨_, step_txn hc hh, rfl, rfl⟩⟩
  · rw [step_txn hc hh, hostTxn, hRun_of_no_unit (s := { s with host := ts }) hs hno, returnToHost, hresult, hc]
  · rw [step_txn hc hh] at h
    cases h
    exact ⟨(hostTxn_kept hq _).phase.trans hp, (hostTxn_hostNext q { s with host := ts }).stays_stopped hc hno⟩

/-! ### The trailer's registers (R510; 44_gzip_framer.md R420; 45_crc32_validator.md R443 to R446) -/

section
variable {p : Slot} {s t u : State}

theorem hAppend_trailerKept (chunk : List Byte) (s : State) : trailerKept s (hAppend chunk s) := by
  unfold hAppend ibAppend
  split <;> exact ⟨rfl, rfl, rfl, rfl⟩

theorem hConfig_trailerKept (v : BitVec 2) (s : State) : trailerKept s (hConfig v s) := by
  unfold hConfig
  split <;> exact ⟨rfl, rfl, rfl, rfl⟩

theorem hRun_trailerKept (s : State) : trailerKept s (hRun s) := by
  unfold hRun
  split <;> exact ⟨rfl, rfl, rfl, rfl⟩

theorem hostTxn_trailerKept {q : HostReq} (hq : q ≠ .reset) (s : State) : trailerKept s (hostTxn q s) := by
  cases q with
  | reset => exact absurd rfl hq
  | append chunk => exact hAppend_trailerKept chunk s
  | config v => exact hConfig_trailerKept v s
  | run => exact hRun_trailerKept s
  | close | read _ | out _ => exact ⟨rfl, rfl, rfl, rfl⟩

/-- Of the steps of the stopped core only H_RESET writes the trailer's registers. -/
theorem step_idle_trailerKept (hc : s.ctl = .idle) (hreset : ∀ ts, s.host ≠ .reset :: ts) (h : step s = .next t) :
    trailerKept s t := by
  cases hh : s.host with
  | nil =>
    rw [step_idle hc, hostStep, hh] at h
    cases h
    exact ⟨rfl, rfl, rfl, rfl⟩
  | cons q ts =>
    rw [step_txn hc hh] at h
    cases h
    exact hostTxn_trailerKept (fun hq => hreset ts (hq ▸ hh)) { s with host := ts }

/-- How a run that began in `s` ends once the trailer is read whole: it commits, or raises BadCrc or BadSize, and only a
commit in WARN mode has written a warning. -/
structure TrailerVerified (s t : State) : Prop where
  ends : t.phase = .done ∨ t.phase = .error ∧ (t.errCode = 6 ∨ t.errCode = 7)
  warned : t.warnCrc ≠ s.warnCrc ∨ t.warnSize ≠ s.warnSize → t.cfgVerify = .warn ∧ t.phase = .done

theorem trailerVerified_verify (c z : Word) (hcrc : u.warnCrc = s.warnCrc) (hsize : u.warnSize = s.warnSize) :
    TrailerVerified s (settle ((verify c z u).bind fun _ v => .ready () (commitTrailer v))) := by
  have hkept : ¬ (u.warnCrc ≠ s.warnCrc ∨ u.warnSize ≠ s.warnSize) := by simp [hcrc, hsize]
  have hdone : TrailerVerified s (commitTrailer u) := ⟨.inl rfl, fun hne => absurd hne hkept⟩
  cases hmode : u.cfgVerify with
  | off => rw [verify_off hmode]; exact hdone
  | warn => rw [verify_warn hmode]; exact ⟨.inl rfl, fun _ => ⟨hmode, rfl⟩⟩
  | fatal =>
    rw [verify_fatal hmode]
    split_ifs
    · exact ⟨.inr ⟨rfl, .inl rfl⟩, fun hne => absurd hne hkept⟩
    · exact ⟨.inr ⟨rfl, .inr rfl⟩, fun hne => absurd hne hkept⟩
    · exact hdone

/-- A read that stops the instruction leaves the registers as they were before it, so any other end `P` is for what follows
it (`trailerKept_or_endsVerified_bind`, for every `P`). -/
theorem trailerKept_or_settle_bind {α : Type} {P : State → Prop} {Q : α → State → Prop} {r : Rd α}
    {f : α → State → Rd Unit} (hr : r.Sat (trailerKept s) Q)
    (hf : ∀ v t, Q v t → trailerKept s (settle (f v t)) ∨ P (settle (f v t))) :
    trailerKept s (settle (r.bind f)) ∨ P (settle (r.bind f)) := by
  cases r with
  | ready v t => exact hf v t hr
  | needMoreOpen t => exact .inl hr
  | needMoreClosed t => exact .inl hr
  | fatal e t => exact .inl hr

theorem execGzTrailer_trailerKept_or_verified (h : exec .gzTrailer s = .next t) :
    trailerKept s t ∨ TrailerVerified s t := by
  cases h
  exact trailerKept_or_settle_bind (brWordLe_trailerKept 4 (u := brAlign s) ⟨rfl, rfl, rfl, rfl⟩) fun _ _ h₁ =>
    trailerKept_or_settle_bind (brWordLe_trailerKept 4 h₁) fun _ _ ⟨_, _, hcrc, hsize⟩ =>
      .inr (trailerVerified_verify _ _ hcrc hsize)

/-- Of the steps of the running core only the trailer's writes its registers, and then it has been read whole. -/
theorem step_run_trailerKept_or_verified (hc : s.ctl = .run p) (h : step s = .next t) :
    trailerKept s t ∨ p = .trailer ∧ TrailerVerified s t := by
  by_cases hp : p = .trailer
  · subst hp
    rw [step_of_fetch_ready hc (i := .gzTrailer) rfl] at h
    exact (execGzTrailer_trailerKept_or_verified h).imp_right fun hv => ⟨rfl, hv⟩
  · exact .inl (step_trailerKept hc h (.inl hp))

theorem HostNext.trailerOk (h : HostNext s t) (hs : TrailerOk s) : TrailerOk t := by
  cases h with
  | reset => exact (by decide : TrailerOk State.reset)
  | begun => exact hs
  | returned => exact hs
  | served => exact hs

/-- In a phase with a unit the registers have their reset values. -/
theorem TrailerOk.cleared (h : TrailerOk s) (hdone : s.phase ≠ .done) (herror : s.phase ≠ .error) :
    s.trlCrc = 0 ∧ s.trlIsize = 0 ∧ s.warnCrc = false ∧ s.warnSize = false := by
  obtain ⟨htrl, hwarn⟩ := h
  have hzero : ¬ (s.trlCrc ≠ 0 ∨ s.trlIsize ≠ 0) := fun hne =>
    (htrl hne).elim hdone fun ⟨hp, _⟩ => herror hp
  have hclear : ¬ (s.warnCrc = true ∨ s.warnSize = true) := fun hset => hdone (hwarn hset)
  simpa [and_assoc] using And.intro hzero hclear

theorem trailerOk_of_trailerKept (h : trailerKept s t)
    (h0 : s.trlCrc = 0 ∧ s.trlIsize = 0 ∧ s.warnCrc = false ∧ s.warnSize = false) : TrailerOk t := by
  obtain ⟨hcrc, hsize, hwcrc, hwsize⟩ := h
  obtain ⟨hcrc0, hsize0, hwcrc0, hwsize0⟩ := h0
  simp [TrailerOk, hcrc, hsize, hwcrc, hwsize, hcrc0, hsize0, hwcrc0, hwsize0]

theorem TrailerVerified.trailerOk (h : TrailerVerified s t) (hwcrc : s.warnCrc = false) (hwsize : s.warnSize = false) :
    TrailerOk t := by
  refine ⟨fun _ => h.ends, fun hset => (h.warned ?_).2⟩
  rwa [hwcrc, hwsize, Bool.ne_false_iff, Bool.ne_false_iff]

theorem step_trailerOk (hstruct : StructOk s) (hs : TrailerOk s) (h : step s = .next t) : TrailerOk t := by
  rcases step_cases h with ⟨-, ts, hn⟩ | ⟨p, hc, -⟩
  · exact hn.trailerOk hs
  · obtain ⟨hphase, -, -⟩ := (controlOk_run hc).mp (structOk_iff.mp hstruct).2
    obtain ⟨herror, hdone⟩ := slotPhase_running p
    have h0 := hs.cleared (hphase ▸ hdone) (hphase ▸ herror)
    rcases step_run_trailerKept_or_verified hc h with hkept | ⟨-, hverified⟩
    · exact trailerOk_of_trailerKept hkept h0
    · obtain ⟨-, -, hwcrc, hwsize⟩ := h0
      exact hverified.trailerOk hwcrc hwsize

end

/-- Settles O16: `step_trailerOk`; and the registers are written by H_RESET (`step_idle_trailerKept`) or by a trailer read
whole (`step_run_trailerKept_or_verified`). -/
theorem trailerRegistersAreKept : Obligations.TrailerRegistersAreKept := by
  unfold Obligations.TrailerRegistersAreKept
  refine ⟨fun s t hstruct _ hs h => step_trailerOk hstruct hs h, fun s t hreset h hne => ?_⟩
  cases hc : s.ctl with
  | idle => exact absurd (step_idle_trailerKept hc (fun ts => hreset ts hc) h) hne
  | run p =>
    obtain ⟨rfl, hverified⟩ := (step_run_trailerKept_or_verified hc h).resolve_left hne
    obtain ⟨-, -, hcfg, -⟩ := (step_run_cases hc h).hostFieldsKept
    exact ⟨rfl, hverified.ends, hcfg ▸ hverified.warned⟩

end Sys2Proof.Machine
end

section
/-! ## The reset family (70_reset_and_hazards.md): what H_RESET leaves, and that the invariants hold there -/

namespace Sys2Proof.Machine

section
variable {s t : State}

/-- H_RESET leaves the power-on state, with the transactions that the host has still to issue (R550, R551). -/
theorem step_reset (hc : s.ctl = .idle) {ts : List HostReq} (hh : s.host = .reset :: ts) :
    step s = .next { State.reset with host := ts } :=
  step_txn hc hh

theorem firstSlot_idle_iff (ph : Phase) : firstSlot ph = .idle ↔ ph = .done ∨ ph = .error := by
  cases ph <;> decide

/-- In a phase without a unit no step of the stopped core but H_RESET writes PHASE or starts the core (R551). -/
theorem step_keeps_phase_of_no_unit (hc : s.ctl = .idle) (hno : firstSlot s.phase = .idle)
    (hreset : ∀ ts, s.host ≠ .reset :: ts) (h : step s = .next t) : t.phase = s.phase ∧ t.ctl = .idle := by
  constructor
  · rcases step_idle_cases hc h with ⟨ts, hh, -⟩ | hkept
    · exact absurd hh (hreset ts)
    · exact hkept.phase
  · rw [step_idle hc] at h
    cases h
    obtain ⟨ts, hnext⟩ := hostStep_hostNext s
    exact hnext.stays_stopped hc hno

/-- The invariant of the machine says nothing of the transactions that the host has pending. -/
theorem inv_reset_withHost (ts : List HostReq) : Safety.Inv { State.reset with host := ts } := inv_reset

theorem trailerOk_reset_withHost (ts : List HostReq) : TrailerOk { State.reset with host := ts } :=
  (by decide : TrailerOk State.reset)

end

/-- Settles O10: `step_reset`, whose state's fields are R550's by definition, CRC_ACC the CRC-32 of the empty OUT by the
invariant at reset; `build_fixedLitLengths` and `build_fixedDistLengths` for the tables; `step_keeps_phase_of_no_unit` for
DONE and ERROR. -/
theorem resetValues : Obligations.ResetValues := by
  unfold Obligations.ResetValues
  refine ⟨fun s hc ts hh => ⟨_, step_reset hc hh, ?_⟩, rfl, build_fixedLitLengths, build_fixedDistLengths,
    fun s t hc hphase hreset h => step_keeps_phase_of_no_unit hc ((firstSlot_idle_iff _).mpr hphase) hreset h⟩
  obtain ⟨-, ⟨hcrc, -⟩, -⟩ := inv_reset
  simpa [State.reset, pVerifyReset] using hcrc

/-- Settles O11: `inv_reset_withHost` and `trailerOk_reset_withHost`. -/
theorem invariantAtReset : Obligations.InvariantAtReset := by
  unfold Obligations.InvariantAtReset
  exact fun ts => ⟨inv_reset_withHost ts, trailerOk_reset_withHost ts⟩

end Sys2Proof.Machine
end
